-- ==== Sys2Proof/Word.lean ====
section
/-! DEFINITION. The two word types of the machine (spec 00_scope.md R7): every CPU register and every
memory cell is 8 bits, and an address of either space is 16 bits. -/

namespace Sys2Proof

/-- The addressable unit of both address spaces (R7). -/
abbrev Byte := BitVec 8

/-- An address of the processor space or of the PPU space, before mirroring (R7, R70). -/
abbrev Addr := BitVec 16

end Sys2Proof
end

