-- ==== Sys2Proof/Config.lean ====
section
/-! DEFINITION. The implementation parameters of 00_scope.md R8 as plain data, and the one free value of
the model: the contents of the colour table. The VALUES of the spec's defaults stand in
Machine/Defaults.lean. -/

namespace Sys2Proof

/-- One colour record: four 8-bit channels (10_state.md R57, 00_scope.md R8 PALETTE_RGBA). -/
structure Rgba where
  r : Byte
  g : Byte
  b : Byte
  a : Byte
deriving DecidableEq, Repr, Inhabited

/-- The nametable mirroring selector of the configuration, all four values the spec names (R8, R111). -/
inductive MirroringMode where
  | horizontal
  | vertical
  | oneScreen
  | fourScreen
deriving DecidableEq, Repr

/-- The two modes a running machine can have: "the machine has no state for such a configuration"
(20_memory.md R111) with one of the other two (log entry 10). -/
inductive Mirroring where
  | horizontal
  | vertical
deriving DecidableEq, Repr

/-- The values of the CYCLES parameter for one opcode byte, by its two flags (30_encoding.md R150). -/
structure CycleCounts where
  /-- page flag false, branch-taken flag false -/
  plain : Nat
  /-- page flag true, branch-taken flag false -/
  crossed : Nat
  /-- page flag false, branch-taken flag true -/
  taken : Nat
  /-- page flag true, branch-taken flag true -/
  takenCrossed : Nat
deriving DecidableEq, Repr

/-- The named parameters of 00_scope.md R8. They are arguments of the machine: State carries them in its
field `cfg` and no rule writes them (10_state.md R65, log entry 2). -/
structure Config where
  /-- MIRRORING, one of the two supported modes -/
  mirroring : Mirroring
  /-- PRG_IMAGE; bytes beyond 32768 are clamped, missing bytes are 0x00 (70_reset_and_hazards.md R551) -/
  prgImage : List Byte
  /-- CHR_IMAGE; bytes beyond 8192 are clamped, missing bytes are 0x00 (R552) -/
  chrImage : List Byte
  /-- CYCLES_PER_SCANLINE -/
  cyclesPerScanline : Nat
  /-- TOTAL_SCANLINES -/
  totalScanlines : Nat
  /-- VISIBLE_HEIGHT -/
  visibleHeight : Nat
  /-- VBLANK_START -/
  vblankStart : Nat
  /-- WIDTH -/
  width : Nat
  /-- PALETTE_RGBA, 64 records -/
  palette : List Rgba
  /-- CYCLES, one entry for each of the 256 opcode bytes -/
  cycles : List CycleCounts
  /-- BRK_LENGTH -/
  brkLength : Nat
  /-- PPU_REG_MIRROR_LO, exclusive -/
  regMirrorLo : Nat
  /-- PPU_REG_MIRROR_HI, exclusive -/
  regMirrorHi : Nat
  /-- STATUS_READ_CLEARS_VBLANK -/
  statusReadClearsVblank : Bool
deriving DecidableEq, Repr

/-- FREE VALUE (log entry 4): the contents of PALETTE_RGBA, for which "the source does not give its
contents, and this spec does not supply them" (49_ppu_sprites_palette.md R480). Nothing constrains it. -/
opaque Config.paletteRgba : BitVec 6 → Rgba

end Sys2Proof
end

