-- ==== Sys2Proof/Syntax.lean ====
section
/-! DEFINITION. The instructions as syntax: `Instr`, one constructor for each of the 151 rows of
spec/opcode_table.json (30_encoding.md R137), with the operand bytes of its format as arguments; the 56
mnemonics and the thirteen formats they are made of; and the operation requests of layer 1 (R130). -/

namespace Sys2Proof

/-- The 56 mnemonics of 30_encoding.md R137. -/
inductive Mnemonic where
  | ADC | AND | ASL | BCC | BCS | BEQ | BIT | BMI | BNE | BPL | BRK | BVC | BVS | CLC
  | CLD | CLI | CLV | CMP | CPX | CPY | DEC | DEX | DEY | EOR | INC | INX | INY | JMP
  | JSR | LDA | LDX | LDY | LSR | NOP | ORA | PHA | PHP | PLA | PLP | ROL | ROR | RTI
  | RTS | SBC | SEC | SED | SEI | STA | STX | STY | TAX | TAY | TSX | TXA | TXS | TYA
deriving DecidableEq, Repr

/-- The thirteen formats of 30_encoding.md R131. -/
inductive Format where
  | imp | acc | imm | zp | zpx | zpy | abs | abx | aby | ind | izx | izy | rel
deriving DecidableEq, Repr

/-- A format with its operand bytes filled in; the two bytes of a 16-bit operand stand as one address
`hi8 * 256 + lo8` (R131, R136). -/
inductive Mode where
  | imp
  | acc
  | imm (v : Byte)
  | zp (z : Byte)
  | zpx (z : Byte)
  | zpy (z : Byte)
  | abs (w : Addr)
  | abx (w : Addr)
  | aby (w : Addr)
  | ind (w : Addr)
  | izx (z : Byte)
  | izy (z : Byte)
  | rel (d : Byte)
deriving DecidableEq, Repr

/-- The instructions of layer 2, one constructor per row of spec/opcode_table.json. The name is the
mnemonic followed by the format where the mnemonic has several formats. -/
inductive Instr where
  | adcImm (v : Byte)
  | adcZp (z : Byte)
  | adcZpx (z : Byte)
  | adcAbs (w : Addr)
  | adcAbx (w : Addr)
  | adcAby (w : Addr)
  | adcIzx (z : Byte)
  | adcIzy (z : Byte)
  | andImm (v : Byte)
  | andZp (z : Byte)
  | andZpx (z : Byte)
  | andAbs (w : Addr)
  | andAbx (w : Addr)
  | andAby (w : Addr)
  | andIzx (z : Byte)
  | andIzy (z : Byte)
  | aslAcc
  | aslZp (z : Byte)
  | aslZpx (z : Byte)
  | aslAbs (w : Addr)
  | aslAbx (w : Addr)
  | bcc (d : Byte)
  | bcs (d : Byte)
  | beq (d : Byte)
  | bitZp (z : Byte)
  | bitAbs (w : Addr)
  | bmi (d : Byte)
  | bne (d : Byte)
  | bpl (d : Byte)
  | brk
  | bvc (d : Byte)
  | bvs (d : Byte)
  | clc
  | cld
  | cli
  | clv
  | cmpImm (v : Byte)
  | cmpZp (z : Byte)
  | cmpZpx (z : Byte)
  | cmpAbs (w : Addr)
  | cmpAbx (w : Addr)
  | cmpAby (w : Addr)
  | cmpIzx (z : Byte)
  | cmpIzy (z : Byte)
  | cpxImm (v : Byte)
  | cpxZp (z : Byte)
  | cpxAbs (w : Addr)
  | cpyImm (v : Byte)
  | cpyZp (z : Byte)
  | cpyAbs (w : Addr)
  | decZp (z : Byte)
  | decZpx (z : Byte)
  | decAbs (w : Addr)
  | decAbx (w : Addr)
  | dex
  | dey
  | eorImm (v : Byte)
  | eorZp (z : Byte)
  | eorZpx (z : Byte)
  | eorAbs (w : Addr)
  | eorAbx (w : Addr)
  | eorAby (w : Addr)
  | eorIzx (z : Byte)
  | eorIzy (z : Byte)
  | incZp (z : Byte)
  | incZpx (z : Byte)
  | incAbs (w : Addr)
  | incAbx (w : Addr)
  | inx
  | iny
  | jmpAbs (w : Addr)
  | jmpInd (w : Addr)
  | jsr (w : Addr)
  | ldaImm (v : Byte)
  | ldaZp (z : Byte)
  | ldaZpx (z : Byte)
  | ldaAbs (w : Addr)
  | ldaAbx (w : Addr)
  | ldaAby (w : Addr)
  | ldaIzx (z : Byte)
  | ldaIzy (z : Byte)
  | ldxImm (v : Byte)
  | ldxZp (z : Byte)
  | ldxZpy (z : Byte)
  | ldxAbs (w : Addr)
  | ldxAby (w : Addr)
  | ldyImm (v : Byte)
  | ldyZp (z : Byte)
  | ldyZpx (z : Byte)
  | ldyAbs (w : Addr)
  | ldyAbx (w : Addr)
  | lsrAcc
  | lsrZp (z : Byte)
  | lsrZpx (z : Byte)
  | lsrAbs (w : Addr)
  | lsrAbx (w : Addr)
  | nop
  | oraImm (v : Byte)
  | oraZp (z : Byte)
  | oraZpx (z : Byte)
  | oraAbs (w : Addr)
  | oraAbx (w : Addr)
  | oraAby (w : Addr)
  | oraIzx (z : Byte)
  | oraIzy (z : Byte)
  | pha
  | php
  | pla
  | plp
  | rolAcc
  | rolZp (z : Byte)
  | rolZpx (z : Byte)
  | rolAbs (w : Addr)
  | rolAbx (w : Addr)
  | rorAcc
  | rorZp (z : Byte)
  | rorZpx (z : Byte)
  | rorAbs (w : Addr)
  | rorAbx (w : Addr)
  | rti
  | rts
  | sbcImm (v : Byte)
  | sbcZp (z : Byte)
  | sbcZpx (z : Byte)
  | sbcAbs (w : Addr)
  | sbcAbx (w : Addr)
  | sbcAby (w : Addr)
  | sbcIzx (z : Byte)
  | sbcIzy (z : Byte)
  | sec
  | sed
  | sei
  | staZp (z : Byte)
  | staZpx (z : Byte)
  | staAbs (w : Addr)
  | staAbx (w : Addr)
  | staAby (w : Addr)
  | staIzx (z : Byte)
  | staIzy (z : Byte)
  | stxZp (z : Byte)
  | stxZpy (z : Byte)
  | stxAbs (w : Addr)
  | styZp (z : Byte)
  | styZpx (z : Byte)
  | styAbs (w : Addr)
  | tax
  | tay
  | tsx
  | txa
  | txs
  | tya
deriving DecidableEq, Repr

/-- The operand form of a layer-1 request, already resolved (00_scope.md R16). -/
inductive Form where
  /-- the form `none` of the spec -/
  | implied
  | acc
  | imm (v : Byte)
  | mem (ea : Addr)
deriving DecidableEq, Repr

/-- A layer-1 operation request `(operation, operand form)` (30_encoding.md R130). -/
structure Request where
  op : Mnemonic
  form : Form
deriving DecidableEq, Repr

end Sys2Proof
end

