-- ==== Sys2Proof/WellFormed.lean ====
section
/-! DEFINITION. The checks on syntax and on configurations: which formats a mnemonic has (the non-empty
cells of 30_encoding.md R137), which requests layer 1 has (R130), and which configurations are
configurations of this machine (00_scope.md R8, 47_ppu_timing.md R403). -/

namespace Sys2Proof

/-- The formats of a mnemonic: the non-empty cells of its row in R137. -/
def formatsOf : Mnemonic → List Format
  | .ADC | .AND | .CMP | .EOR | .LDA | .ORA | .SBC => [.imm, .zp, .zpx, .abs, .abx, .aby, .izx, .izy]
  | .ASL | .LSR | .ROL | .ROR => [.acc, .zp, .zpx, .abs, .abx]
  | .BCC | .BCS | .BEQ | .BMI | .BNE | .BPL | .BVC | .BVS => [.rel]
  | .BIT => [.zp, .abs]
  | .BRK | .CLC | .CLD | .CLI | .CLV | .DEX | .DEY | .INX | .INY | .NOP | .PHA | .PHP | .PLA | .PLP | .RTI | .RTS | .SEC | .SED | .SEI | .TAX | .TAY | .TSX | .TXA | .TXS | .TYA => [.imp]
  | .CPX | .CPY => [.imm, .zp, .abs]
  | .DEC | .INC => [.zp, .zpx, .abs, .abx]
  | .JMP => [.abs, .ind]
  | .JSR => [.abs]
  | .LDX => [.imm, .zp, .zpy, .abs, .aby]
  | .LDY => [.imm, .zp, .zpx, .abs, .abx]
  | .STA => [.zp, .zpx, .abs, .abx, .aby, .izx, .izy]
  | .STX => [.zp, .zpy, .abs]
  | .STY => [.zp, .zpx, .abs]

/-- True when R137 has a cell for this mnemonic in this format. -/
def hasCell (m : Mnemonic) (f : Format) : Bool := (formatsOf m).contains f

/-- The operand form a format resolves to, with the addressing modes collapsed (R130): every memory mode is
`mem(ea)`; `rel` and `ind` belong to control transfers, which are no requests. -/
def Format.accepts : Format → Form → Bool
  | .imp, .implied => true
  | .acc, .acc => true
  | .imm, .imm _ => true
  | .zp, .mem _ | .zpx, .mem _ | .zpy, .mem _ | .abs, .mem _ | .abx, .mem _ | .aby, .mem _ => true
  | .izx, .mem _ | .izy, .mem _ => true
  | _, _ => false

/-- The control transfers, which a translated program realises as native control flow and which are
therefore no operation requests (R130, R342); RTI is the return of a handler entry point (45_control_system.md
R311). -/
def Mnemonic.isControlTransfer : Mnemonic → Bool
  | .JMP | .JSR | .RTS | .RTI | .BCC | .BCS | .BEQ | .BNE | .BMI | .BPL | .BVC | .BVS => true
  | _ => false

/-- A request is well formed when its operation is no control transfer and accepts its operand form. -/
def Request.wellFormed (r : Request) : Bool :=
  !r.op.isControlTransfer && (formatsOf r.op).any fun f => f.accepts r.form

/-- The constraints on the parameters: R403 requires VBLANK_START and VISIBLE_HEIGHT below
TOTAL_SCANLINES; R402 needs a scanline of at least one cycle; R131 fixes lengths of 1 to 3 bytes;
PALETTE_RGBA has 64 records and CYCLES 256 entries (R8). They are hypotheses on a configuration and the
machine does not test them (93_implementation_defined.md section 2, log entry 17). -/
abbrev Config.WellFormed (c : Config) : Prop :=
  0 < c.cyclesPerScanline ∧ c.visibleHeight < c.totalScanlines ∧ c.vblankStart < c.totalScanlines ∧
  1 ≤ c.brkLength ∧ c.brkLength ≤ 3 ∧ c.palette.length = 64 ∧ c.cycles.length = 256

end Sys2Proof
end

