-- ==== Sys2Proof/Decode.lean ====
section
/-! DEFINITION. Decoder and encoder of layer 2, written from the encoding tables of 30_encoding.md
(R131, R134, R136, R137). The decoder is table driven and total on any bytes; the 105 opcode bytes with no
row are rejected by name (R145). Also here: the default cycle counts of R150, which stand in the same
table, and the byte order of 16-bit quantities (20_memory.md R120). -/

namespace Sys2Proof

/-! ## Byte order of 16-bit quantities -/

/-- The 16-bit quantity whose low byte is `lo` and whose high byte is `hi`: `{hi, lo}` (R10, R120). -/
def word16 (lo hi : Byte) : Addr := hi ++ lo

/-- Bits 7:0 of a 16-bit quantity. -/
def lowByte (w : Addr) : Byte := w.extractLsb' 0 8

/-- Bits 15:8 of a 16-bit quantity. -/
def highByte (w : Addr) : Byte := w.extractLsb' 8 8

/-! ## Formats -/

/-- Length in bytes that a format fixes (R131, R134). BRK, of format `imp`, is the exception: its length is
BRK_LENGTH. -/
def Format.length : Format → Nat
  | .imp | .acc => 1
  | .imm | .zp | .zpx | .zpy | .izx | .izy | .rel => 2
  | .abs | .abx | .aby | .ind => 3

/-- The format of a filled-in mode. -/
def Mode.format : Mode → Format
  | .imp => .imp
  | .acc => .acc
  | .imm _ => .imm
  | .zp _ => .zp
  | .zpx _ => .zpx
  | .zpy _ => .zpy
  | .abs _ => .abs
  | .abx _ => .abx
  | .aby _ => .aby
  | .ind _ => .ind
  | .izx _ => .izx
  | .izy _ => .izy
  | .rel _ => .rel

/-- The operand bytes of a mode in memory order: the low byte of an address first (R131, R136). -/
def Mode.bytes : Mode → List Byte
  | .imp | .acc => []
  | .imm b | .zp b | .zpx b | .zpy b | .izx b | .izy b | .rel b => [b]
  | .abs w | .abx w | .aby w | .ind w => [lowByte w, highByte w]

/-! ## The opcode map (R137) -/

/-- One row of R137: `b1` and `b2` of `build` are the operand bytes (R133), ignored where the format has
none. `cycles` and `plus` are the base count and the `+` of the cell. -/
structure OpRow where
  mnemonic : Mnemonic
  format : Format
  opcode : Byte
  cycles : Nat
  plus : Bool
  build : Byte → Byte → Instr

/-- The rows of R137 whose mnemonic begins with A. -/
def opRowsA : List OpRow := [
  ⟨.ADC, .imm, 0x69#8, 2, false, fun b1 _ => .adcImm b1⟩,
  ⟨.ADC, .zp, 0x65#8, 3, false, fun b1 _ => .adcZp b1⟩,
  ⟨.ADC, .zpx, 0x75#8, 4, false, fun b1 _ => .adcZpx b1⟩,
  ⟨.ADC, .abs, 0x6d#8, 4, false, fun b1 b2 => .adcAbs (word16 b1 b2)⟩,
  ⟨.ADC, .abx, 0x7d#8, 4, true, fun b1 b2 => .adcAbx (word16 b1 b2)⟩,
  ⟨.ADC, .aby, 0x79#8, 4, true, fun b1 b2 => .adcAby (word16 b1 b2)⟩,
  ⟨.ADC, .izx, 0x61#8, 6, false, fun b1 _ => .adcIzx b1⟩,
  ⟨.ADC, .izy, 0x71#8, 5, true, fun b1 _ => .adcIzy b1⟩,
  ⟨.AND, .imm, 0x29#8, 2, false, fun b1 _ => .andImm b1⟩,
  ⟨.AND, .zp, 0x25#8, 3, false, fun b1 _ => .andZp b1⟩,
  ⟨.AND, .zpx, 0x35#8, 4, false, fun b1 _ => .andZpx b1⟩,
  ⟨.AND, .abs, 0x2d#8, 4, false, fun b1 b2 => .andAbs (word16 b1 b2)⟩,
  ⟨.AND, .abx, 0x3d#8, 4, true, fun b1 b2 => .andAbx (word16 b1 b2)⟩,
  ⟨.AND, .aby, 0x39#8, 4, true, fun b1 b2 => .andAby (word16 b1 b2)⟩,
  ⟨.AND, .izx, 0x21#8, 6, false, fun b1 _ => .andIzx b1⟩,
  ⟨.AND, .izy, 0x31#8, 5, true, fun b1 _ => .andIzy b1⟩,
  ⟨.ASL, .acc, 0x0a#8, 2, false, fun _ _ => .aslAcc⟩,
  ⟨.ASL, .zp, 0x06#8, 5, false, fun b1 _ => .aslZp b1⟩,
  ⟨.ASL, .zpx, 0x16#8, 6, false, fun b1 _ => .aslZpx b1⟩,
  ⟨.ASL, .abs, 0x0e#8, 6, false, fun b1 b2 => .aslAbs (word16 b1 b2)⟩,
  ⟨.ASL, .abx, 0x1e#8, 7, false, fun b1 b2 => .aslAbx (word16 b1 b2)⟩]

/-- The rows of R137 whose mnemonic begins with B. -/
def opRowsB : List OpRow := [
  ⟨.BCC, .rel, 0x90#8, 2, false, fun b1 _ => .bcc b1⟩,
  ⟨.BCS, .rel, 0xb0#8, 2, false, fun b1 _ => .bcs b1⟩,
  ⟨.BEQ, .rel, 0xf0#8, 2, false, fun b1 _ => .beq b1⟩,
  ⟨.BIT, .zp, 0x24#8, 3, false, fun b1 _ => .bitZp b1⟩,
  ⟨.BIT, .abs, 0x2c#8, 4, false, fun b1 b2 => .bitAbs (word16 b1 b2)⟩,
  ⟨.BMI, .rel, 0x30#8, 2, false, fun b1 _ => .bmi b1⟩,
  ⟨.BNE, .rel, 0xd0#8, 2, false, fun b1 _ => .bne b1⟩,
  ⟨.BPL, .rel, 0x10#8, 2, false, fun b1 _ => .bpl b1⟩,
  ⟨.BRK, .imp, 0x00#8, 7, false, fun _ _ => .brk⟩,
  ⟨.BVC, .rel, 0x50#8, 2, false, fun b1 _ => .bvc b1⟩,
  ⟨.BVS, .rel, 0x70#8, 2, false, fun b1 _ => .bvs b1⟩]

/-- The rows of R137 whose mnemonic begins with C. -/
def opRowsC : List OpRow := [
  ⟨.CLC, .imp, 0x18#8, 2, false, fun _ _ => .clc⟩,
  ⟨.CLD, .imp, 0xd8#8, 2, false, fun _ _ => .cld⟩,
  ⟨.CLI, .imp, 0x58#8, 2, false, fun _ _ => .cli⟩,
  ⟨.CLV, .imp, 0xb8#8, 2, false, fun _ _ => .clv⟩,
  ⟨.CMP, .imm, 0xc9#8, 2, false, fun b1 _ => .cmpImm b1⟩,
  ⟨.CMP, .zp, 0xc5#8, 3, false, fun b1 _ => .cmpZp b1⟩,
  ⟨.CMP, .zpx, 0xd5#8, 4, false, fun b1 _ => .cmpZpx b1⟩,
  ⟨.CMP, .abs, 0xcd#8, 4, false, fun b1 b2 => .cmpAbs (word16 b1 b2)⟩,
  ⟨.CMP, .abx, 0xdd#8, 4, true, fun b1 b2 => .cmpAbx (word16 b1 b2)⟩,
  ⟨.CMP, .aby, 0xd9#8, 4, true, fun b1 b2 => .cmpAby (word16 b1 b2)⟩,
  ⟨.CMP, .izx, 0xc1#8, 6, false, fun b1 _ => .cmpIzx b1⟩,
  ⟨.CMP, .izy, 0xd1#8, 5, true, fun b1 _ => .cmpIzy b1⟩,
  ⟨.CPX, .imm, 0xe0#8, 2, false, fun b1 _ => .cpxImm b1⟩,
  ⟨.CPX, .zp, 0xe4#8, 3, false, fun b1 _ => .cpxZp b1⟩,
  ⟨.CPX, .abs, 0xec#8, 4, false, fun b1 b2 => .cpxAbs (word16 b1 b2)⟩,
  ⟨.CPY, .imm, 0xc0#8, 2, false, fun b1 _ => .cpyImm b1⟩,
  ⟨.CPY, .zp, 0xc4#8, 3, false, fun b1 _ => .cpyZp b1⟩,
  ⟨.CPY, .abs, 0xcc#8, 4, false, fun b1 b2 => .cpyAbs (word16 b1 b2)⟩]

/-- The rows of R137 whose mnemonic begins with D. -/
def opRowsD : List OpRow := [
  ⟨.DEC, .zp, 0xc6#8, 5, false, fun b1 _ => .decZp b1⟩,
  ⟨.DEC, .zpx, 0xd6#8, 6, false, fun b1 _ => .decZpx b1⟩,
  ⟨.DEC, .abs, 0xce#8, 6, false, fun b1 b2 => .decAbs (word16 b1 b2)⟩,
  ⟨.DEC, .abx, 0xde#8, 7, false, fun b1 b2 => .decAbx (word16 b1 b2)⟩,
  ⟨.DEX, .imp, 0xca#8, 2, false, fun _ _ => .dex⟩,
  ⟨.DEY, .imp, 0x88#8, 2, false, fun _ _ => .dey⟩]

/-- The rows of R137 whose mnemonic begins with E. -/
def opRowsE : List OpRow := [
  ⟨.EOR, .imm, 0x49#8, 2, false, fun b1 _ => .eorImm b1⟩,
  ⟨.EOR, .zp, 0x45#8, 3, false, fun b1 _ => .eorZp b1⟩,
  ⟨.EOR, .zpx, 0x55#8, 4, false, fun b1 _ => .eorZpx b1⟩,
  ⟨.EOR, .abs, 0x4d#8, 4, false, fun b1 b2 => .eorAbs (word16 b1 b2)⟩,
  ⟨.EOR, .abx, 0x5d#8, 4, true, fun b1 b2 => .eorAbx (word16 b1 b2)⟩,
  ⟨.EOR, .aby, 0x59#8, 4, true, fun b1 b2 => .eorAby (word16 b1 b2)⟩,
  ⟨.EOR, .izx, 0x41#8, 6, false, fun b1 _ => .eorIzx b1⟩,
  ⟨.EOR, .izy, 0x51#8, 5, true, fun b1 _ => .eorIzy b1⟩]

/-- The rows of R137 whose mnemonic begins with I. -/
def opRowsI : List OpRow := [
  ⟨.INC, .zp, 0xe6#8, 5, false, fun b1 _ => .incZp b1⟩,
  ⟨.INC, .zpx, 0xf6#8, 6, false, fun b1 _ => .incZpx b1⟩,
  ⟨.INC, .abs, 0xee#8, 6, false, fun b1 b2 => .incAbs (word16 b1 b2)⟩,
  ⟨.INC, .abx, 0xfe#8, 7, false, fun b1 b2 => .incAbx (word16 b1 b2)⟩,
  ⟨.INX, .imp, 0xe8#8, 2, false, fun _ _ => .inx⟩,
  ⟨.INY, .imp, 0xc8#8, 2, false, fun _ _ => .iny⟩]

/-- The rows of R137 whose mnemonic begins with J. -/
def opRowsJ : List OpRow := [
  ⟨.JMP, .abs, 0x4c#8, 3, false, fun b1 b2 => .jmpAbs (word16 b1 b2)⟩,
  ⟨.JMP, .ind, 0x6c#8, 5, false, fun b1 b2 => .jmpInd (word16 b1 b2)⟩,
  ⟨.JSR, .abs, 0x20#8, 6, false, fun b1 b2 => .jsr (word16 b1 b2)⟩]

/-- The rows of R137 whose mnemonic begins with L. -/
def opRowsL : List OpRow := [
  ⟨.LDA, .imm, 0xa9#8, 2, false, fun b1 _ => .ldaImm b1⟩,
  ⟨.LDA, .zp, 0xa5#8, 3, false, fun b1 _ => .ldaZp b1⟩,
  ⟨.LDA, .zpx, 0xb5#8, 4, false, fun b1 _ => .ldaZpx b1⟩,
  ⟨.LDA, .abs, 0xad#8, 4, false, fun b1 b2 => .ldaAbs (word16 b1 b2)⟩,
  ⟨.LDA, .abx, 0xbd#8, 4, true, fun b1 b2 => .ldaAbx (word16 b1 b2)⟩,
  ⟨.LDA, .aby, 0xb9#8, 4, true, fun b1 b2 => .ldaAby (word16 b1 b2)⟩,
  ⟨.LDA, .izx, 0xa1#8, 6, false, fun b1 _ => .ldaIzx b1⟩,
  ⟨.LDA, .izy, 0xb1#8, 5, true, fun b1 _ => .ldaIzy b1⟩,
  ⟨.LDX, .imm, 0xa2#8, 2, false, fun b1 _ => .ldxImm b1⟩,
  ⟨.LDX, .zp, 0xa6#8, 3, false, fun b1 _ => .ldxZp b1⟩,
  ⟨.LDX, .zpy, 0xb6#8, 4, false, fun b1 _ => .ldxZpy b1⟩,
  ⟨.LDX, .abs, 0xae#8, 4, false, fun b1 b2 => .ldxAbs (word16 b1 b2)⟩,
  ⟨.LDX, .aby, 0xbe#8, 4, true, fun b1 b2 => .ldxAby (word16 b1 b2)⟩,
  ⟨.LDY, .imm, 0xa0#8, 2, false, fun b1 _ => .ldyImm b1⟩,
  ⟨.LDY, .zp, 0xa4#8, 3, false, fun b1 _ => .ldyZp b1⟩,
  ⟨.LDY, .zpx, 0xb4#8, 4, false, fun b1 _ => .ldyZpx b1⟩,
  ⟨.LDY, .abs, 0xac#8, 4, false, fun b1 b2 => .ldyAbs (word16 b1 b2)⟩,
  ⟨.LDY, .abx, 0xbc#8, 4, true, fun b1 b2 => .ldyAbx (word16 b1 b2)⟩,
  ⟨.LSR, .acc, 0x4a#8, 2, false, fun _ _ => .lsrAcc⟩,
  ⟨.LSR, .zp, 0x46#8, 5, false, fun b1 _ => .lsrZp b1⟩,
  ⟨.LSR, .zpx, 0x56#8, 6, false, fun b1 _ => .lsrZpx b1⟩,
  ⟨.LSR, .abs, 0x4e#8, 6, false, fun b1 b2 => .lsrAbs (word16 b1 b2)⟩,
  ⟨.LSR, .abx, 0x5e#8, 7, false, fun b1 b2 => .lsrAbx (word16 b1 b2)⟩]

/-- The rows of R137 whose mnemonic begins with N. -/
def opRowsN : List OpRow := [
  ⟨.NOP, .imp, 0xea#8, 2, false, fun _ _ => .nop⟩]

/-- The rows of R137 whose mnemonic begins with O. -/
def opRowsO : List OpRow := [
  ⟨.ORA, .imm, 0x09#8, 2, false, fun b1 _ => .oraImm b1⟩,
  ⟨.ORA, .zp, 0x05#8, 3, false, fun b1 _ => .oraZp b1⟩,
  ⟨.ORA, .zpx, 0x15#8, 4, false, fun b1 _ => .oraZpx b1⟩,
  ⟨.ORA, .abs, 0x0d#8, 4, false, fun b1 b2 => .oraAbs (word16 b1 b2)⟩,
  ⟨.ORA, .abx, 0x1d#8, 4, true, fun b1 b2 => .oraAbx (word16 b1 b2)⟩,
  ⟨.ORA, .aby, 0x19#8, 4, true, fun b1 b2 => .oraAby (word16 b1 b2)⟩,
  ⟨.ORA, .izx, 0x01#8, 6, false, fun b1 _ => .oraIzx b1⟩,
  ⟨.ORA, .izy, 0x11#8, 5, true, fun b1 _ => .oraIzy b1⟩]

/-- The rows of R137 whose mnemonic begins with P. -/
def opRowsP : List OpRow := [
  ⟨.PHA, .imp, 0x48#8, 3, false, fun _ _ => .pha⟩,
  ⟨.PHP, .imp, 0x08#8, 3, false, fun _ _ => .php⟩,
  ⟨.PLA, .imp, 0x68#8, 4, false, fun _ _ => .pla⟩,
  ⟨.PLP, .imp, 0x28#8, 4, false, fun _ _ => .plp⟩]

/-- The rows of R137 whose mnemonic begins with R. -/
def opRowsR : List OpRow := [
  ⟨.ROL, .acc, 0x2a#8, 2, false, fun _ _ => .rolAcc⟩,
  ⟨.ROL, .zp, 0x26#8, 5, false, fun b1 _ => .rolZp b1⟩,
  ⟨.ROL, .zpx, 0x36#8, 6, false, fun b1 _ => .rolZpx b1⟩,
  ⟨.ROL, .abs, 0x2e#8, 6, false, fun b1 b2 => .rolAbs (word16 b1 b2)⟩,
  ⟨.ROL, .abx, 0x3e#8, 7, false, fun b1 b2 => .rolAbx (word16 b1 b2)⟩,
  ⟨.ROR, .acc, 0x6a#8, 2, false, fun _ _ => .rorAcc⟩,
  ⟨.ROR, .zp, 0x66#8, 5, false, fun b1 _ => .rorZp b1⟩,
  ⟨.ROR, .zpx, 0x76#8, 6, false, fun b1 _ => .rorZpx b1⟩,
  ⟨.ROR, .abs, 0x6e#8, 6, false, fun b1 b2 => .rorAbs (word16 b1 b2)⟩,
  ⟨.ROR, .abx, 0x7e#8, 7, false, fun b1 b2 => .rorAbx (word16 b1 b2)⟩,
  ⟨.RTI, .imp, 0x40#8, 6, false, fun _ _ => .rti⟩,
  ⟨.RTS, .imp, 0x60#8, 6, false, fun _ _ => .rts⟩]

/-- The rows of R137 whose mnemonic begins with S. -/
def opRowsS : List OpRow := [
  ⟨.SBC, .imm, 0xe9#8, 2, false, fun b1 _ => .sbcImm b1⟩,
  ⟨.SBC, .zp, 0xe5#8, 3, false, fun b1 _ => .sbcZp b1⟩,
  ⟨.SBC, .zpx, 0xf5#8, 4, false, fun b1 _ => .sbcZpx b1⟩,
  ⟨.SBC, .abs, 0xed#8, 4, false, fun b1 b2 => .sbcAbs (word16 b1 b2)⟩,
  ⟨.SBC, .abx, 0xfd#8, 4, true, fun b1 b2 => .sbcAbx (word16 b1 b2)⟩,
  ⟨.SBC, .aby, 0xf9#8, 4, true, fun b1 b2 => .sbcAby (word16 b1 b2)⟩,
  ⟨.SBC, .izx, 0xe1#8, 6, false, fun b1 _ => .sbcIzx b1⟩,
  ⟨.SBC, .izy, 0xf1#8, 5, true, fun b1 _ => .sbcIzy b1⟩,
  ⟨.SEC, .imp, 0x38#8, 2, false, fun _ _ => .sec⟩,
  ⟨.SED, .imp, 0xf8#8, 2, false, fun _ _ => .sed⟩,
  ⟨.SEI, .imp, 0x78#8, 2, false, fun _ _ => .sei⟩,
  ⟨.STA, .zp, 0x85#8, 3, false, fun b1 _ => .staZp b1⟩,
  ⟨.STA, .zpx, 0x95#8, 4, false, fun b1 _ => .staZpx b1⟩,
  ⟨.STA, .abs, 0x8d#8, 4, false, fun b1 b2 => .staAbs (word16 b1 b2)⟩,
  ⟨.STA, .abx, 0x9d#8, 5, false, fun b1 b2 => .staAbx (word16 b1 b2)⟩,
  ⟨.STA, .aby, 0x99#8, 5, false, fun b1 b2 => .staAby (word16 b1 b2)⟩,
  ⟨.STA, .izx, 0x81#8, 6, false, fun b1 _ => .staIzx b1⟩,
  ⟨.STA, .izy, 0x91#8, 6, false, fun b1 _ => .staIzy b1⟩,
  ⟨.STX, .zp, 0x86#8, 3, false, fun b1 _ => .stxZp b1⟩,
  ⟨.STX, .zpy, 0x96#8, 4, false, fun b1 _ => .stxZpy b1⟩,
  ⟨.STX, .abs, 0x8e#8, 4, false, fun b1 b2 => .stxAbs (word16 b1 b2)⟩,
  ⟨.STY, .zp, 0x84#8, 3, false, fun b1 _ => .styZp b1⟩,
  ⟨.STY, .zpx, 0x94#8, 4, false, fun b1 _ => .styZpx b1⟩,
  ⟨.STY, .abs, 0x8c#8, 4, false, fun b1 b2 => .styAbs (word16 b1 b2)⟩]

/-- The rows of R137 whose mnemonic begins with T. -/
def opRowsT : List OpRow := [
  ⟨.TAX, .imp, 0xaa#8, 2, false, fun _ _ => .tax⟩,
  ⟨.TAY, .imp, 0xa8#8, 2, false, fun _ _ => .tay⟩,
  ⟨.TSX, .imp, 0xba#8, 2, false, fun _ _ => .tsx⟩,
  ⟨.TXA, .imp, 0x8a#8, 2, false, fun _ _ => .txa⟩,
  ⟨.TXS, .imp, 0x9a#8, 2, false, fun _ _ => .txs⟩,
  ⟨.TYA, .imp, 0x98#8, 2, false, fun _ _ => .tya⟩]

/-- The whole opcode map of R137: 56 mnemonics, 151 opcode bytes. -/
def opTable : List OpRow :=
  opRowsA ++ opRowsB ++ opRowsC ++ opRowsD ++ opRowsE ++ opRowsI ++ opRowsJ ++ opRowsL ++ opRowsN ++ opRowsO ++ opRowsP ++ opRowsR ++ opRowsS ++ opRowsT

/-- The row of R137 whose opcode byte is `op`, if there is one (R131: "The opcode byte alone fixes the
length and the format"; R139: the mask of every row is 0xFF). -/
def lookupOpcode (op : Byte) : Option OpRow := opTable.find? fun r => r.opcode == op

/-- Length of an instruction from its row: BRK is BRK_LENGTH bytes (R133, R134). -/
def OpRow.length (brkLength : Nat) (r : OpRow) : Nat :=
  if r.mnemonic = .BRK then brkLength else r.format.length

/-! ## Decoder -/

/-- Why bytes are no instruction. -/
inductive DecodeError where
  /-- the first byte is one of the 105 undocumented opcode bytes (R145) -/
  | undocumentedOpcode (op : Byte)
  /-- there are fewer bytes than the format has -/
  | truncated
deriving DecidableEq, Repr

/-- The instruction at the head of a list of bytes, total on any bytes; bytes after the instruction's own
are not looked at. Of BRK only byte 0 is decoded (R134). -/
def decode : List Byte → Except DecodeError Instr
  | [] => .error .truncated
  | op :: rest =>
    match lookupOpcode op with
    | none => .error (.undocumentedOpcode op)
    | some r =>
      match r.format.length, rest with
      | 1, _ => .ok (r.build 0 0)
      | 2, b1 :: _ => .ok (r.build b1 0)
      | 3, b1 :: b2 :: _ => .ok (r.build b1 b2)
      | _, _ => .error .truncated

/-- The decoder on a number whose bits 7:0 are byte 0, bits 15:8 byte 1 and bits 23:16 byte 2; bits at and
above `nbits` are 0. -/
def decodeTableWord (nbits w : Nat) : Option Instr :=
  let v := w % 2 ^ nbits
  (decode [BitVec.ofNat 8 v, BitVec.ofNat 8 (v / 256), BitVec.ofNat 8 (v / 65536)]).toOption

/-! ## Encoder -/

/-- What a row of R137 says of one instruction: its mnemonic, its operand bytes in their format, and its
opcode byte. -/
structure Shape where
  mnemonic : Mnemonic
  mode : Mode
  opcode : Byte
deriving DecidableEq, Repr

/-- The row of R137 each instruction stands for, read in the other direction than the decoder reads it. -/
def Instr.shape : Instr → Shape
  | .adcImm v => ⟨.ADC, .imm v, 0x69#8⟩
  | .adcZp z => ⟨.ADC, .zp z, 0x65#8⟩
  | .adcZpx z => ⟨.ADC, .zpx z, 0x75#8⟩
  | .adcAbs w => ⟨.ADC, .abs w, 0x6d#8⟩
  | .adcAbx w => ⟨.ADC, .abx w, 0x7d#8⟩
  | .adcAby w => ⟨.ADC, .aby w, 0x79#8⟩
  | .adcIzx z => ⟨.ADC, .izx z, 0x61#8⟩
  | .adcIzy z => ⟨.ADC, .izy z, 0x71#8⟩
  | .andImm v => ⟨.AND, .imm v, 0x29#8⟩
  | .andZp z => ⟨.AND, .zp z, 0x25#8⟩
  | .andZpx z => ⟨.AND, .zpx z, 0x35#8⟩
  | .andAbs w => ⟨.AND, .abs w, 0x2d#8⟩
  | .andAbx w => ⟨.AND, .abx w, 0x3d#8⟩
  | .andAby w => ⟨.AND, .aby w, 0x39#8⟩
  | .andIzx z => ⟨.AND, .izx z, 0x21#8⟩
  | .andIzy z => ⟨.AND, .izy z, 0x31#8⟩
  | .aslAcc => ⟨.ASL, .acc, 0x0a#8⟩
  | .aslZp z => ⟨.ASL, .zp z, 0x06#8⟩
  | .aslZpx z => ⟨.ASL, .zpx z, 0x16#8⟩
  | .aslAbs w => ⟨.ASL, .abs w, 0x0e#8⟩
  | .aslAbx w => ⟨.ASL, .abx w, 0x1e#8⟩
  | .bcc d => ⟨.BCC, .rel d, 0x90#8⟩
  | .bcs d => ⟨.BCS, .rel d, 0xb0#8⟩
  | .beq d => ⟨.BEQ, .rel d, 0xf0#8⟩
  | .bitZp z => ⟨.BIT, .zp z, 0x24#8⟩
  | .bitAbs w => ⟨.BIT, .abs w, 0x2c#8⟩
  | .bmi d => ⟨.BMI, .rel d, 0x30#8⟩
  | .bne d => ⟨.BNE, .rel d, 0xd0#8⟩
  | .bpl d => ⟨.BPL, .rel d, 0x10#8⟩
  | .brk => ⟨.BRK, .imp, 0x00#8⟩
  | .bvc d => ⟨.BVC, .rel d, 0x50#8⟩
  | .bvs d => ⟨.BVS, .rel d, 0x70#8⟩
  | .clc => ⟨.CLC, .imp, 0x18#8⟩
  | .cld => ⟨.CLD, .imp, 0xd8#8⟩
  | .cli => ⟨.CLI, .imp, 0x58#8⟩
  | .clv => ⟨.CLV, .imp, 0xb8#8⟩
  | .cmpImm v => ⟨.CMP, .imm v, 0xc9#8⟩
  | .cmpZp z => ⟨.CMP, .zp z, 0xc5#8⟩
  | .cmpZpx z => ⟨.CMP, .zpx z, 0xd5#8⟩
  | .cmpAbs w => ⟨.CMP, .abs w, 0xcd#8⟩
  | .cmpAbx w => ⟨.CMP, .abx w, 0xdd#8⟩
  | .cmpAby w => ⟨.CMP, .aby w, 0xd9#8⟩
  | .cmpIzx z => ⟨.CMP, .izx z, 0xc1#8⟩
  | .cmpIzy z => ⟨.CMP, .izy z, 0xd1#8⟩
  | .cpxImm v => ⟨.CPX, .imm v, 0xe0#8⟩
  | .cpxZp z => ⟨.CPX, .zp z, 0xe4#8⟩
  | .cpxAbs w => ⟨.CPX, .abs w, 0xec#8⟩
  | .cpyImm v => ⟨.CPY, .imm v, 0xc0#8⟩
  | .cpyZp z => ⟨.CPY, .zp z, 0xc4#8⟩
  | .cpyAbs w => ⟨.CPY, .abs w, 0xcc#8⟩
  | .decZp z => ⟨.DEC, .zp z, 0xc6#8⟩
  | .decZpx z => ⟨.DEC, .zpx z, 0xd6#8⟩
  | .decAbs w => ⟨.DEC, .abs w, 0xce#8⟩
  | .decAbx w => ⟨.DEC, .abx w, 0xde#8⟩
  | .dex => ⟨.DEX, .imp, 0xca#8⟩
  | .dey => ⟨.DEY, .imp, 0x88#8⟩
  | .eorImm v => ⟨.EOR, .imm v, 0x49#8⟩
  | .eorZp z => ⟨.EOR, .zp z, 0x45#8⟩
  | .eorZpx z => ⟨.EOR, .zpx z, 0x55#8⟩
  | .eorAbs w => ⟨.EOR, .abs w, 0x4d#8⟩
  | .eorAbx w => ⟨.EOR, .abx w, 0x5d#8⟩
  | .eorAby w => ⟨.EOR, .aby w, 0x59#8⟩
  | .eorIzx z => ⟨.EOR, .izx z, 0x41#8⟩
  | .eorIzy z => ⟨.EOR, .izy z, 0x51#8⟩
  | .incZp z => ⟨.INC, .zp z, 0xe6#8⟩
  | .incZpx z => ⟨.INC, .zpx z, 0xf6#8⟩
  | .incAbs w => ⟨.INC, .abs w, 0xee#8⟩
  | .incAbx w => ⟨.INC, .abx w, 0xfe#8⟩
  | .inx => ⟨.INX, .imp, 0xe8#8⟩
  | .iny => ⟨.INY, .imp, 0xc8#8⟩
  | .jmpAbs w => ⟨.JMP, .abs w, 0x4c#8⟩
  | .jmpInd w => ⟨.JMP, .ind w, 0x6c#8⟩
  | .jsr w => ⟨.JSR, .abs w, 0x20#8⟩
  | .ldaImm v => ⟨.LDA, .imm v, 0xa9#8⟩
  | .ldaZp z => ⟨.LDA, .zp z, 0xa5#8⟩
  | .ldaZpx z => ⟨.LDA, .zpx z, 0xb5#8⟩
  | .ldaAbs w => ⟨.LDA, .abs w, 0xad#8⟩
  | .ldaAbx w => ⟨.LDA, .abx w, 0xbd#8⟩
  | .ldaAby w => ⟨.LDA, .aby w, 0xb9#8⟩
  | .ldaIzx z => ⟨.LDA, .izx z, 0xa1#8⟩
  | .ldaIzy z => ⟨.LDA, .izy z, 0xb1#8⟩
  | .ldxImm v => ⟨.LDX, .imm v, 0xa2#8⟩
  | .ldxZp z => ⟨.LDX, .zp z, 0xa6#8⟩
  | .ldxZpy z => ⟨.LDX, .zpy z, 0xb6#8⟩
  | .ldxAbs w => ⟨.LDX, .abs w, 0xae#8⟩
  | .ldxAby w => ⟨.LDX, .aby w, 0xbe#8⟩
  | .ldyImm v => ⟨.LDY, .imm v, 0xa0#8⟩
  | .ldyZp z => ⟨.LDY, .zp z, 0xa4#8⟩
  | .ldyZpx z => ⟨.LDY, .zpx z, 0xb4#8⟩
  | .ldyAbs w => ⟨.LDY, .abs w, 0xac#8⟩
  | .ldyAbx w => ⟨.LDY, .abx w, 0xbc#8⟩
  | .lsrAcc => ⟨.LSR, .acc, 0x4a#8⟩
  | .lsrZp z => ⟨.LSR, .zp z, 0x46#8⟩
  | .lsrZpx z => ⟨.LSR, .zpx z, 0x56#8⟩
  | .lsrAbs w => ⟨.LSR, .abs w, 0x4e#8⟩
  | .lsrAbx w => ⟨.LSR, .abx w, 0x5e#8⟩
  | .nop => ⟨.NOP, .imp, 0xea#8⟩
  | .oraImm v => ⟨.ORA, .imm v, 0x09#8⟩
  | .oraZp z => ⟨.ORA, .zp z, 0x05#8⟩
  | .oraZpx z => ⟨.ORA, .zpx z, 0x15#8⟩
  | .oraAbs w => ⟨.ORA, .abs w, 0x0d#8⟩
  | .oraAbx w => ⟨.ORA, .abx w, 0x1d#8⟩
  | .oraAby w => ⟨.ORA, .aby w, 0x19#8⟩
  | .oraIzx z => ⟨.ORA, .izx z, 0x01#8⟩
  | .oraIzy z => ⟨.ORA, .izy z, 0x11#8⟩
  | .pha => ⟨.PHA, .imp, 0x48#8⟩
  | .php => ⟨.PHP, .imp, 0x08#8⟩
  | .pla => ⟨.PLA, .imp, 0x68#8⟩
  | .plp => ⟨.PLP, .imp, 0x28#8⟩
  | .rolAcc => ⟨.ROL, .acc, 0x2a#8⟩
  | .rolZp z => ⟨.ROL, .zp z, 0x26#8⟩
  | .rolZpx z => ⟨.ROL, .zpx z, 0x36#8⟩
  | .rolAbs w => ⟨.ROL, .abs w, 0x2e#8⟩
  | .rolAbx w => ⟨.ROL, .abx w, 0x3e#8⟩
  | .rorAcc => ⟨.ROR, .acc, 0x6a#8⟩
  | .rorZp z => ⟨.ROR, .zp z, 0x66#8⟩
  | .rorZpx z => ⟨.ROR, .zpx z, 0x76#8⟩
  | .rorAbs w => ⟨.ROR, .abs w, 0x6e#8⟩
  | .rorAbx w => ⟨.ROR, .abx w, 0x7e#8⟩
  | .rti => ⟨.RTI, .imp, 0x40#8⟩
  | .rts => ⟨.RTS, .imp, 0x60#8⟩
  | .sbcImm v => ⟨.SBC, .imm v, 0xe9#8⟩
  | .sbcZp z => ⟨.SBC, .zp z, 0xe5#8⟩
  | .sbcZpx z => ⟨.SBC, .zpx z, 0xf5#8⟩
  | .sbcAbs w => ⟨.SBC, .abs w, 0xed#8⟩
  | .sbcAbx w => ⟨.SBC, .abx w, 0xfd#8⟩
  | .sbcAby w => ⟨.SBC, .aby w, 0xf9#8⟩
  | .sbcIzx z => ⟨.SBC, .izx z, 0xe1#8⟩
  | .sbcIzy z => ⟨.SBC, .izy z, 0xf1#8⟩
  | .sec => ⟨.SEC, .imp, 0x38#8⟩
  | .sed => ⟨.SED, .imp, 0xf8#8⟩
  | .sei => ⟨.SEI, .imp, 0x78#8⟩
  | .staZp z => ⟨.STA, .zp z, 0x85#8⟩
  | .staZpx z => ⟨.STA, .zpx z, 0x95#8⟩
  | .staAbs w => ⟨.STA, .abs w, 0x8d#8⟩
  | .staAbx w => ⟨.STA, .abx w, 0x9d#8⟩
  | .staAby w => ⟨.STA, .aby w, 0x99#8⟩
  | .staIzx z => ⟨.STA, .izx z, 0x81#8⟩
  | .staIzy z => ⟨.STA, .izy z, 0x91#8⟩
  | .stxZp z => ⟨.STX, .zp z, 0x86#8⟩
  | .stxZpy z => ⟨.STX, .zpy z, 0x96#8⟩
  | .stxAbs w => ⟨.STX, .abs w, 0x8e#8⟩
  | .styZp z => ⟨.STY, .zp z, 0x84#8⟩
  | .styZpx z => ⟨.STY, .zpx z, 0x94#8⟩
  | .styAbs w => ⟨.STY, .abs w, 0x8c#8⟩
  | .tax => ⟨.TAX, .imp, 0xaa#8⟩
  | .tay => ⟨.TAY, .imp, 0xa8#8⟩
  | .tsx => ⟨.TSX, .imp, 0xba#8⟩
  | .txa => ⟨.TXA, .imp, 0x8a#8⟩
  | .txs => ⟨.TXS, .imp, 0x9a#8⟩
  | .tya => ⟨.TYA, .imp, 0x98#8⟩

/-- The mnemonic of an instruction. -/
def Instr.mnemonic (i : Instr) : Mnemonic := i.shape.mnemonic

/-- The operand bytes of an instruction in their format. -/
def Instr.mode (i : Instr) : Mode := i.shape.mode

/-- The opcode byte of an instruction. -/
def Instr.opcode (i : Instr) : Byte := i.shape.opcode

/-- An instruction is well formed when its mnemonic has its format in R137. -/
def Instr.WellFormed (i : Instr) : Prop := hasCell i.mnemonic i.mode.format = true

/-- The bytes of an instruction, opcode first (R131). For BRK this is its one decoded byte; the padding
bytes that BRK_LENGTH adds are not part of it (log entry 9). -/
def encode (i : Instr) : List Byte := i.opcode :: i.mode.bytes

/-- How far the program counter moves over an instruction (R133, R134). -/
def Instr.length (brkLength : Nat) (i : Instr) : Nat :=
  if i.mnemonic = .BRK then brkLength else i.mode.format.length

/-! ## Default cycle counts (R150) -/

/-- The default CYCLES of one row: the base count, 1 more for a `+` cell when the page flag is set, and for
a branch 1 more when taken and 1 more again when the page flag is set (R150, log entry 8). -/
def OpRow.cycleCounts (r : OpRow) : CycleCounts :=
  if r.format = .rel then ⟨r.cycles, r.cycles, r.cycles + 1, r.cycles + 2⟩
  else
    let c := if r.plus then r.cycles + 1 else r.cycles
    ⟨r.cycles, c, r.cycles, c⟩

/-- The default CYCLES table, one entry per opcode byte; the entries of undocumented bytes are never
used (R145). -/
def defaultCycles : List CycleCounts :=
  (List.range 256).map fun n =>
    match lookupOpcode (BitVec.ofNat 8 n) with
    | some r => r.cycleCounts
    | none => ⟨0, 0, 0, 0⟩

end Sys2Proof
end

