-- ==== Sys2Proof/Machine/Memory.lean ====
section
/-! DEFINITION. A backing byte array as data: a list of (offset, byte) pairs in one canonical form, offsets
strictly rising and no entry equal to what an unlisted offset reads as. Every array of 10_state.md R35,
R36 and R41 to R44 is such a memory; its offsets are those of the spec (`zp[a]`, `stk[a - 0x0100]`, …). -/

namespace Sys2Proof.Machine

/-- A byte array, listed sparsely. -/
abbrev Memory := List Host.Cell

/-- What an offset that is not listed reads as: 0x00, the reset value of every array (R64) and the padding
of a short image (R551, R552). DESIGN CHOICE D37 of the spec for work RAM and save RAM (log entry 5). -/
def Memory.unlisted : Byte := 0x00#8

/-- The byte at an offset. -/
def Memory.read : Memory → Nat → Byte
  | [], _ => Memory.unlisted
  | (k, b) :: m, a => if k = a then b else Memory.read m a

/-- The memory with one byte changed, in canonical form again. -/
def Memory.write : Memory → Nat → Byte → Memory
  | [], a, v => if v = Memory.unlisted then [] else [(a, v)]
  | (k, b) :: m, a, v =>
    if a < k then (if v = Memory.unlisted then (k, b) :: m else (a, v) :: (k, b) :: m)
    else if a = k then (if v = Memory.unlisted then m else (a, v) :: m)
    else (k, b) :: Memory.write m a v

/-- At most `n` bytes of a flat image, laid down from offset `k`. -/
def Memory.ofBytesFrom : Nat → Nat → List Byte → Memory
  | 0, _, _ => []
  | _, _, [] => []
  | n + 1, k, b :: bs =>
    if b = Memory.unlisted then Memory.ofBytesFrom n (k + 1) bs
    else (k, b) :: Memory.ofBytesFrom n (k + 1) bs

/-- A flat image in an array of `n` bytes: "size-clamped, zero elsewhere" (R41, R551, R552). -/
def Memory.ofBytes (n : Nat) (bs : List Byte) : Memory := Memory.ofBytesFrom n 0 bs

/-- The canonical form: offsets strictly rising, no entry equal to what an unlisted offset reads as. -/
abbrev Memory.wf (m : Memory) : Prop :=
  List.Pairwise (fun c d : Host.Cell => c.1 < d.1) m ∧ ∀ c ∈ m, c.2 ≠ Memory.unlisted

/-- Every listed offset lies inside an array of `n` bytes. -/
abbrev Memory.within (n : Nat) (m : Memory) : Prop := ∀ c ∈ m, c.1 < n

end Sys2Proof.Machine
end

