-- ==== Sys2Proof/Machine/Defaults.lean ====
section
/-! DEFINITION. The default values of the parameters of 00_scope.md R8, and the fixed PPU to CPU ratio. -/

namespace Sys2Proof.Machine

/-- PPU_CPU_RATIO, "fixed by the source" (R8). -/
def ppuCpuRatio : Nat := 3

/-- The OPEN colour table (R8, 49_ppu_sprites_palette.md R480) as 64 records of the free value
`Config.paletteRgba` (log entry 4). -/
def openPalette : List Rgba := (List.range 64).map fun n => Config.paletteRgba (BitVec.ofNat 6 n)

/-- The configuration `State.reset` has: the defaults of R8, 47_ppu_timing.md R402 and 30_encoding.md R150.
MIRRORING has no default; `horizontal`, the mode of the spec's own vectors, is a DESIGN CHOICE, and so is
the empty program image (log entry 3). -/
def defaultConfig : Config where
  mirroring := .horizontal
  prgImage := []
  chrImage := []
  cyclesPerScanline := 341
  totalScanlines := 262
  visibleHeight := 240
  vblankStart := 241
  width := 256
  palette := openPalette
  cycles := defaultCycles
  brkLength := 2
  regMirrorLo := 0x2008
  regMirrorHi := 0x3000
  statusReadClearsVblank := true

/-- Value of the stack pointer after reset: "set to top, 0xFF" (70_reset_and_hazards.md R550). -/
def resetSp : Byte := 0xFF#8

/-- Value of the flag byte after reset: only the unused flag set (10_state.md R25). -/
def resetP : Byte := 0x20#8

/-- `Read16(0xFFFC)` out of program storage, the reset entry point of layer 2 (R550, 20_memory.md R129; log
entry 18). -/
def resetVector (prg : Memory) : Addr := word16 (prg.read 0x7FFC) (prg.read 0x7FFD)

end Sys2Proof.Machine
end

