-- ==== Sys2Proof/Machine/State.lean ====
section
/-! DEFINITION. The state of the machine as plain data (10_state.md R20), the reasons a step can stop
(60_exceptions.md R503), and the state after reset (R64, 70_reset_and_hazards.md R550). -/

namespace Sys2Proof.Machine

/-- `ctx`, the interrupt context (R32). -/
inductive Context where
  | normal
  | inNmi
  | inIrq
deriving DecidableEq, Repr

/-- `ppu.master_slave` (R53). -/
inductive MasterSlave where
  | unset
  | master
  | slave
deriving DecidableEq, Repr

/-- `speed_multiplier`, one of 1, 2, 5, 100 (R61). -/
inductive Speed where
  | x1
  | x2
  | x5
  | x100
deriving DecidableEq, Repr

/-- The eight buttons of one port in the order 0 to 7 of 46_device_registers.md R390; true while held. -/
structure Pad where
  a : Bool
  b : Bool
  select : Bool
  start : Bool
  up : Bool
  down : Bool
  left : Bool
  right : Bool
deriving DecidableEq, Repr

/-- A pad with no button held: the power-on value. DESIGN CHOICE: the spec gives none (log entry 11). -/
def Pad.released : Pad := ⟨false, false, false, false, false, false, false, false⟩

/-- The host-written controls that reset does not change (R60 to R62, 70_reset_and_hazards.md R553). -/
structure Controls where
  paused : Bool
  speedMultiplier : Speed
  forceGreyscale : Bool
  /-- `buttons[0]` -/
  pad0 : Pad
  /-- `buttons[1]` -/
  pad1 : Pad
deriving DecidableEq, Repr

/-- The values at power-on (R61, R62; buttons: log entry 11). -/
def Controls.initial : Controls := ⟨false, .x1, false, Pad.released, Pad.released⟩

/-- Direction of an anomalous access (20_memory.md R86). -/
inductive AccessKind where
  | read
  | write
deriving DecidableEq, Repr

/-- One entry of the ghost anomaly log: the mirrored address and the direction (R86). -/
structure Anomaly where
  addr : Nat
  kind : AccessKind
deriving DecidableEq, Repr

/-- A frame buffer: rows of pixels, first row first (R57, R58; log entry 15). -/
abbrev Frame := List (List Rgba)

/-- A pixel of a frame buffer after reset: (0, 0, 0, 0) (R57). -/
def Rgba.blank : Rgba := ⟨0, 0, 0, 0⟩

/-- `ppu.ctrl`, held as fields (R45). -/
structure PpuCtrl where
  nametable : BitVec 2
  inc32 : Bool
  spriteTable : Bool
  bgTable : Bool
  sprite16 : Bool
  nmi : Bool
deriving DecidableEq, Repr

/-- The state of the PPU (R40 to R58). -/
structure Ppu where
  /-- `ppu.pattern[0]`, 4096 bytes (R41) -/
  pattern0 : Memory
  /-- `ppu.pattern[1]`, 4096 bytes (R41) -/
  pattern1 : Memory
  /-- `ppu.nametable[0]`, 1024 bytes (R42) -/
  nametable0 : Memory
  /-- `ppu.nametable[1]`, 1024 bytes (R42) -/
  nametable1 : Memory
  /-- 256 bytes, 64 entries of four (R43) -/
  oam : Memory
  /-- 32 cells, 28 of them reachable (R44) -/
  pal : Memory
  ctrl : PpuCtrl
  /-- held as the written byte (R46) -/
  mask : Byte
  vblank : Bool
  sprite0Hit : Bool
  overflow : Bool
  oamAddr : Byte
  vaddr : Addr
  scrollX : Byte
  scrollY : Byte
  /-- false: the next write is the first of a pair (R51) -/
  toggle : Bool
  readBuffer : Byte
  masterSlave : MasterSlave
  cycle : Nat
  scanline : Nat
  frameCount : Nat
  spriteCount : Nat
  /-- `ppu.work`, row 0 at the top (R57) -/
  work : Frame
  /-- `ppu.out`, row 0 at the bottom (R58) -/
  out : Frame
deriving DecidableEq, Repr

/-- The state of the machine (R20). -/
structure State where
  /-- accumulator (R21) -/
  a : Byte
  /-- index register X (R22) -/
  x : Byte
  /-- index register Y (R23) -/
  y : Byte
  /-- stack pointer, an offset into the stack page (R24) -/
  sp : Byte
  /-- status-flag byte (R25, R26) -/
  p : Byte
  /-- program counter of layer 2 (R30) -/
  pc : Addr
  /-- resume address while a handler runs, layer 2 (R31) -/
  retPc : Addr
  ctx : Context
  nmiPending : Bool
  irqPending : Bool
  /-- zero page, 256 bytes (R35) -/
  zp : Memory
  /-- stack page, 256 bytes (R35) -/
  stk : Memory
  /-- general RAM, 1536 bytes (R35) -/
  ram : Memory
  /-- cartridge save RAM, 8192 bytes (R35) -/
  sram : Memory
  /-- cartridge program storage, 32768 bytes (R35) -/
  prg : Memory
  /-- the pristine copy of program storage (R36) -/
  prgPristine : Memory
  /-- the fallback region, 65536 bytes, by mirrored address (R35, 20_memory.md R77) -/
  fallback : Memory
  /-- controller strobe (R37) -/
  strobe : Bool
  /-- `shift_idx[0]`, 0 to 8 (R37) -/
  shiftIdx0 : Nat
  /-- `shift_idx[1]`, 0 to 8 (R37) -/
  shiftIdx1 : Nat
  ppu : Ppu
  controls : Controls
  restartRequested : Bool
  /-- the ghost anomaly log, oldest entry first (20_memory.md R86, log entry 16) -/
  anomalies : List Anomaly
  /-- the parameters of the machine; no rule writes them (R65, log entry 2) -/
  cfg : Config
deriving DecidableEq, Repr

/-- The faults of the machine: the one `Fault` of the closed list of 60_exceptions.md R503. -/
inductive Fault where
  /-- raised by RTI in context `normal` (45_control_system.md R311). Safe: the machine stops where the spec
  gives no meaning. -/
  | returnOutsideHandler
deriving DecidableEq, Repr

/-- The refusals of the machine: the three `Refuse` reasons of 60_exceptions.md R503, and the host's
`notModelled`. -/
inductive Refusal where
  /-- raised by `exec` for an instruction the model has no meaning for; no arm raises it any more. Safe. -/
  | notModelled (mnemonic : String)
  /-- raised by the fetch of an opcode byte with no row in the opcode map (30_encoding.md R145). Safe. -/
  | undocumentedOpcode (op : Byte) (pc : Addr)
  /-- raised by the fetch of an opcode or operand byte below 0x8000 (R132). Safe. -/
  | fetchOutsideProgramStorage
  /-- raised by `powerOn` for MIRRORING `oneScreen` or `fourScreen`, before reset (20_memory.md R111). Safe. -/
  | unsupportedMirroring
deriving DecidableEq, Repr

/-- What a step or a meaning answers. -/
abbrev StepResult := Host.Outcome State Fault Refusal

/-- The PPU after reset (R64, 70_reset_and_hazards.md R550, R552). -/
def Ppu.boot (c : Config) : Ppu where
  pattern0 := Memory.ofBytes 0x1000 c.chrImage
  pattern1 := Memory.ofBytes 0x1000 (c.chrImage.drop 0x1000)
  nametable0 := []
  nametable1 := []
  oam := []
  pal := []
  ctrl := ⟨0, false, false, false, false, false⟩
  mask := 0
  vblank := false
  sprite0Hit := false
  overflow := false
  oamAddr := 0
  vaddr := 0
  scrollX := 0
  scrollY := 0
  toggle := false
  readBuffer := 0
  masterSlave := .unset
  cycle := 0
  scanline := 0
  frameCount := 0
  spriteCount := 0
  work := List.replicate c.visibleHeight (List.replicate c.width Rgba.blank)
  out := List.replicate c.visibleHeight (List.replicate c.width Rgba.blank)

/-- The state after a reset that puts `prg` into program storage and keeps the host's controls
(R64, 70_reset_and_hazards.md R550, R553). -/
def State.boot (c : Config) (prg : Memory) (ctl : Controls) : State where
  a := 0
  x := 0
  y := 0
  sp := resetSp
  p := resetP
  pc := resetVector prg
  retPc := 0
  ctx := .normal
  nmiPending := false
  irqPending := false
  zp := []
  stk := []
  ram := []
  sram := []
  prg := prg
  prgPristine := prg
  fallback := []
  strobe := false
  shiftIdx0 := 0
  shiftIdx1 := 0
  ppu := Ppu.boot c
  controls := ctl
  restartRequested := false
  anomalies := []
  cfg := c

/-- The first reset of a configuration: PRG_IMAGE becomes program storage and its pristine copy (R551). -/
def State.firstReset (c : Config) : State :=
  State.boot c (Memory.ofBytes 0x8000 c.prgImage) Controls.initial

/-- The machine right after reset, with the default configuration (log entry 3). -/
def State.reset : State := State.firstReset defaultConfig

end Sys2Proof.Machine
end

