-- ==== Sys2Proof/Machine/Flags.lean ====
section
/-! DEFINITION. The flag byte (10_state.md R25 to R28), the flag helper SetZN (00_scope.md R13), and every
8-bit computation that sets flags: add, subtract, compare, shifts and rotates, as functions of bytes. -/

namespace Sys2Proof.Machine

/-- The eight flags of `P` (R26). -/
inductive Flag where
  | C | Z | I | D | B | U | V | N
deriving DecidableEq, Repr

/-- The bit of `P` a flag stands in (R26). -/
def Flag.bit : Flag → Nat
  | .C => 0
  | .Z => 1
  | .I => 2
  | .D => 3
  | .B => 4
  | .U => 5
  | .V => 6
  | .N => 7

/-- A flag of a flag byte. -/
def getFlag (f : Flag) (p : Byte) : Bool := p.getLsbD f.bit

/-- A flag byte with one flag written and the others as they were. -/
def setFlag (f : Flag) (b : Bool) (p : Byte) : Byte :=
  if b then p ||| (1#8 <<< f.bit) else p &&& ~~~(1#8 <<< f.bit)

/-- `SetZN(v)`: Z is "result == 0", N is bit 7 (R13). -/
def setZN (v : Byte) (p : Byte) : Byte := setFlag .N (v.getLsbD 7) (setFlag .Z (v == 0) p)

/-- The whole-byte flag write `v | 0x20`: the unused flag is always set (R27, 44_stack_flags.md R293). -/
def wholeByte (v : Byte) : Byte := v ||| 0x20#8

/-- An 8-bit result with the carry and overflow it leaves. -/
structure Alu where
  result : Byte
  carry : Bool
  overflow : Bool
deriving DecidableEq, Repr

/-- ADC on bytes: the sum in a wider integer, its truncation, carry and overflow
(41_arithmetic_compare.md R193). -/
def addCarry (a m : Byte) (c : Bool) : Alu :=
  let sum := a.toNat + m.toNat + c.toNat
  let r := BitVec.ofNat 8 sum
  ⟨r, decide (sum > 0xFF), (~~~(a ^^^ m) &&& (a ^^^ r) &&& 0x80#8) != 0#8⟩

/-- SBC on bytes: the difference over the integers, carry set when there is no borrow (R194). -/
def subBorrow (a m : Byte) (c : Bool) : Alu :=
  let diff : Int := a.toNat - m.toNat - (1 - c.toNat : Int)
  let r := BitVec.ofInt 8 diff
  ⟨r, decide (diff ≥ 0), ((a ^^^ m) &&& (a ^^^ r) &&& 0x80#8) != 0#8⟩

/-- The flags of an add or a subtract: C, V, Z, N (R193, R194). -/
def arithFlags (r : Alu) (p : Byte) : Byte :=
  setZN r.result (setFlag .V r.overflow (setFlag .C r.carry p))

/-- The flags of a compare of a register with an operand: C is "register >= operand", Z and N from the
truncated difference (R195 to R197). -/
def compareFlags (reg m : Byte) (p : Byte) : Byte :=
  setZN (reg - m) (setFlag .C (decide (reg.toNat ≥ m.toNat)) p)

/-- The flags of BIT: V and N are bits 6 and 7 of the operand, Z tests the conjunction
(42_logic_shift.md R224). -/
def bitFlags (a m : Byte) (p : Byte) : Byte :=
  setFlag .N (m.getLsbD 7) (setFlag .Z ((m &&& a) == 0) (setFlag .V (m.getLsbD 6) p))

/-- A shifted byte and the bit shifted out. -/
structure Shifted where
  result : Byte
  carry : Bool
deriving DecidableEq, Repr

/-- ASL on a byte (R225); the old carry plays no part. -/
def shiftLeft (v : Byte) (_c : Bool) : Shifted := ⟨v <<< 1, v.getLsbD 7⟩

/-- LSR on a byte (R226); the old carry plays no part. -/
def shiftRight (v : Byte) (_c : Bool) : Shifted := ⟨v >>> 1, v.getLsbD 0⟩

/-- ROL on a byte: the old carry enters bit 0 of a 9-bit value before truncation (R227). -/
def rotateLeft (v : Byte) (c : Bool) : Shifted :=
  ⟨(v <<< 1) ||| BitVec.ofNat 8 c.toNat, v.getLsbD 7⟩

/-- ROR on a byte: the old carry enters bit 8 of a 9-bit intermediate before the shift (R228). -/
def rotateRight (v : Byte) (c : Bool) : Shifted :=
  ⟨BitVec.ofNat 8 ((c.toNat * 256 + v.toNat) / 2), v.getLsbD 0⟩

/-- The flags of a shift or rotate: C, Z, N (R229). -/
def shiftFlags (r : Shifted) (p : Byte) : Byte := setZN r.result (setFlag .C r.carry p)

end Sys2Proof.Machine
end

