-- ==== Sys2Proof/Machine/Translate.lean ====
section
/-! DEFINITION. The Memory Translation Unit (20_memory.md): mirroring and the static range tables of both
address spaces, `peek`, the stored byte an address of the processor space designates, and the byte reads
and writes of the PPU space. A mirrored address is a plain number below 65536. -/

namespace Sys2Proof.Machine

/-! ## Processor space -/

/-- `MirrorCpu(a)` (R72): both bounds of the register mirror are exclusive. -/
def mirrorCpu (c : Config) (a : Addr) : Nat :=
  let n := a.toNat
  if n < 0x2000 then n % 0x0800
  else if c.regMirrorLo < n ∧ n < c.regMirrorHi then 0x2000 + n % 8
  else n

/-- The arrays that back processor addresses (10_state.md R35). -/
inductive Backing where
  | zp
  | stk
  | ram
  | sram
  | prg
  | fallback
deriving DecidableEq, Repr

/-- One row of the static range table: addresses `start ≤ m < stop` (R74). -/
structure Region where
  start : Nat
  stop : Nat
  backing : Backing
  writable : Bool
deriving DecidableEq, Repr

/-- The processor-space static range table (R74). -/
def cpuRegions : List Region := [
  ⟨0x0000, 0x0100, .zp, true⟩,
  ⟨0x0100, 0x0200, .stk, true⟩,
  ⟨0x0200, 0x0800, .ram, true⟩,
  ⟨0x6000, 0x8000, .sram, true⟩,
  ⟨0x8000, 0x10000, .prg, false⟩]

/-- The first range that holds a mirrored address: "Lookup is a linear scan ... returning the first matching
range" (R71). -/
def translateCpu (m : Nat) : Option Region :=
  cpuRegions.find? fun r => decide (r.start ≤ m) && decide (m < r.stop)

/-- A backing array of the state. -/
def State.memory (s : State) : Backing → Memory
  | .zp => s.zp
  | .stk => s.stk
  | .ram => s.ram
  | .sram => s.sram
  | .prg => s.prg
  | .fallback => s.fallback

/-- The state with a backing array replaced. -/
def State.setMemory (s : State) (b : Backing) (m : Memory) : State :=
  match b with
  | .zp => { s with zp := m }
  | .stk => { s with stk := m }
  | .ram => { s with ram := m }
  | .sram => { s with sram := m }
  | .prg => { s with prg := m }
  | .fallback => { s with fallback := m }

/-- The array and the offset in it that a mirrored address designates: its static range, else the fallback
region by the mirrored address itself (R74, R77). -/
def cellOf (m : Nat) : Backing × Nat :=
  match translateCpu m with
  | some r => (r.backing, m - r.start)
  | none => (.fallback, m)

/-- The byte stored at a processor address: the model's read of one byte of memory, without asking a device
and without a log entry. -/
def peek (s : State) (a : Addr) : Byte :=
  let c := cellOf (mirrorCpu s.cfg a)
  (s.memory c.1).read c.2

/-- The state with the byte at a mirrored address replaced in the array that backs it. -/
def storeCell (s : State) (m : Nat) (v : Byte) : State :=
  let c := cellOf m
  s.setMemory c.1 ((s.memory c.1).write c.2 v)

/-- An entry appended to the ghost anomaly log (R86). -/
def logAnomaly (m : Nat) (k : AccessKind) (s : State) : State :=
  { s with anomalies := s.anomalies ++ [⟨m, k⟩] }

/-! ## PPU space -/

/-- `MirrorPpu(a)` (R100), with the palette redirect of R101 and the offset 0x1000 of R102. -/
def mirrorPpu (a : Addr) : Nat :=
  let m := a.toNat % 0x4000
  if 0x3F00 ≤ m then
    let q := 0x3F00 + m % 0x20
    if q = 0x3F10 ∨ q = 0x3F14 ∨ q = 0x3F18 ∨ q = 0x3F1C then q - 0x10 else q
  else if 0x3000 ≤ m then m - 0x1000
  else m

/-- The memories behind the PPU space (10_state.md R41, R42, R44). -/
inductive PpuBacking where
  | pattern0
  | pattern1
  | nametable0
  | nametable1
  | pal
deriving DecidableEq, Repr

/-- `PhysicalTable(MIRRORING, slot)` (R104). -/
def physicalTable : Mirroring → Nat → Nat
  | .horizontal, slot => slot / 2
  | .vertical, slot => slot % 2

/-- The memory and the offset in it behind a mirrored PPU address (R103 to R105). -/
def ppuCell (mir : Mirroring) (m : Nat) : PpuBacking × Nat :=
  if m < 0x1000 then (.pattern0, m)
  else if m < 0x2000 then (.pattern1, m - 0x1000)
  else if m < 0x3000 then
    let off := m - 0x2000
    if physicalTable mir (off / 0x0400) = 0 then (.nametable0, off % 0x0400)
    else (.nametable1, off % 0x0400)
  else (.pal, m - 0x3F00)

/-- A memory of the PPU. -/
def Ppu.memory (u : Ppu) : PpuBacking → Memory
  | .pattern0 => u.pattern0
  | .pattern1 => u.pattern1
  | .nametable0 => u.nametable0
  | .nametable1 => u.nametable1
  | .pal => u.pal

/-- The PPU with one of its memories replaced. -/
def Ppu.setMemory (u : Ppu) (b : PpuBacking) (m : Memory) : Ppu :=
  match b with
  | .pattern0 => { u with pattern0 := m }
  | .pattern1 => { u with pattern1 := m }
  | .nametable0 => { u with nametable0 := m }
  | .nametable1 => { u with nametable1 := m }
  | .pal => { u with pal := m }

/-- `PpuRead(a)` (R105). -/
def ppuRead (mir : Mirroring) (u : Ppu) (a : Addr) : Byte :=
  let c := ppuCell mir (mirrorPpu a)
  (u.memory c.1).read c.2

/-- `PpuWrite(a, v)`: the same cell `PpuRead(a)` reads; no write is dropped (R106). -/
def ppuWrite (mir : Mirroring) (u : Ppu) (a : Addr) (v : Byte) : Ppu :=
  let c := ppuCell mir (mirrorPpu a)
  u.setMemory c.1 ((u.memory c.1).write c.2 v)

end Sys2Proof.Machine
end

