-- ==== Sys2Proof/Machine/Device.lean ====
section
/-! DEFINITION. The device registers behind the dispatcher (46_device_registers.md): what a read and a write
of each does. OAM DMA, which reads the whole processor space, stands in Machine/Ops.lean. -/

namespace Sys2Proof.Machine

/-- The state with the PPU replaced. -/
def State.setPpu (s : State) (u : Ppu) : State := { s with ppu := u }

/-! ## PPU registers -/

/-- The `Inc()` of the data port: 1 or 32 (R374). -/
def Ppu.increment (u : Ppu) : Addr := if u.ctrl.inc32 then 32#16 else 1#16

/-- Write of PPU control, 0x2000 (R360, R361): the master/slave select resolves once, and the latch of the
nametable index tests its value from before the write. -/
def Ppu.writeControl (u : Ppu) (v : Byte) : Ppu :=
  { u with
    masterSlave :=
      if u.masterSlave = .unset then (if v.getLsbD 6 then .slave else .master) else u.masterSlave
    ctrl :=
      { nametable :=
          if u.mask.getLsbD 3 = true ∨ u.masterSlave ≠ .slave then v.extractLsb' 0 2 else u.ctrl.nametable
        inc32 := v.getLsbD 2
        spriteTable := v.getLsbD 3
        bgTable := v.getLsbD 4
        sprite16 := v.getLsbD 5
        nmi := v.getLsbD 7 } }

/-- Write of PPU mask, 0x2001 (R363). -/
def Ppu.writeMask (u : Ppu) (v : Byte) : Ppu := { u with mask := v }

/-- The status byte: bit 7 vertical blank, bit 6 sprite-zero hit, bit 5 overflow, the rest 0 (R364). -/
def Ppu.statusByte (u : Ppu) : Byte :=
  BitVec.ofNat 8 (u.vblank.toNat * 128 + u.sprite0Hit.toNat * 64 + u.overflow.toNat * 32)

/-- What a status read leaves: the write toggle reset, and the vertical-blank flag cleared where
STATUS_READ_CLEARS_VBLANK is set (R364). -/
def Ppu.afterStatusRead (u : Ppu) (clears : Bool) : Ppu :=
  { u with toggle := false, vblank := if clears then false else u.vblank }

/-- Write of the OAM address, 0x2003 (R366). -/
def Ppu.writeOamAddr (u : Ppu) (v : Byte) : Ppu := { u with oamAddr := v }

/-- Write of OAM data, 0x2004: the cursor moves with 8-bit wraparound (R367). -/
def Ppu.writeOamData (u : Ppu) (v : Byte) : Ppu :=
  { u with oam := u.oam.write u.oamAddr.toNat v, oamAddr := u.oamAddr + 1 }

/-- Read of OAM data, 0x2004, with no change of the cursor (R368). -/
def Ppu.readOamData (u : Ppu) : Byte := u.oam.read u.oamAddr.toNat

/-- Write of PPU scroll, 0x2005: X then Y (R370). -/
def Ppu.writeScroll (u : Ppu) (v : Byte) : Ppu :=
  if u.toggle then { u with scrollY := v, toggle := false } else { u with scrollX := v, toggle := true }

/-- Write of PPU address, 0x2006: high byte first, stored whole (R372). -/
def Ppu.writeAddress (u : Ppu) (v : Byte) : Ppu :=
  if u.toggle then { u with vaddr := word16 v (highByte u.vaddr), toggle := false }
  else { u with vaddr := word16 (lowByte u.vaddr) v, toggle := true }

/-- Write of the data port, 0x2007 (R376). -/
def Ppu.writeData (mir : Mirroring) (u : Ppu) (v : Byte) : Ppu :=
  { ppuWrite mir u u.vaddr v with vaddr := u.vaddr + u.increment }

/-- Read of the data port, 0x2007: a palette byte at once, any other byte through the read buffer (R375). -/
def Ppu.readData (mir : Mirroring) (u : Ppu) : Byte × Ppu :=
  if 0x3F00 ≤ mirrorPpu u.vaddr then
    (ppuRead mir u u.vaddr, { u with vaddr := u.vaddr + u.increment })
  else
    (u.readBuffer, { u with readBuffer := ppuRead mir u u.vaddr, vaddr := u.vaddr + u.increment })

/-! ## Controllers (R388 to R390) -/

/-- Button `i` of a pad, in the order of R390. The register rules ask only for 0 to 7. -/
def Pad.button (p : Pad) : Nat → Bool
  | 0 => p.a
  | 1 => p.b
  | 2 => p.select
  | 3 => p.start
  | 4 => p.up
  | 5 => p.down
  | 6 => p.left
  | _ => p.right

/-- The bit a controller read returns and the shift index it leaves (R389). -/
def controllerBit (strobe : Bool) (pad : Pad) (idx : Nat) : Bool × Nat :=
  if strobe then (pad.button 0, idx)
  else if idx < 8 then (pad.button idx, idx + 1)
  else (true, idx)

/-- A bit as the byte a controller read returns: bits 7:1 are 0 (R389). -/
def bitByte (b : Bool) : Byte := BitVec.ofNat 8 b.toNat

/-- Read of controller port 0, 0x4016 (R389). -/
def readPort0 (s : State) : Byte × State :=
  let r := controllerBit s.strobe s.controls.pad0 s.shiftIdx0
  (bitByte r.1, { s with shiftIdx0 := r.2 })

/-- Read of controller port 1, 0x4017 (R389). -/
def readPort1 (s : State) : Byte × State :=
  let r := controllerBit s.strobe s.controls.pad1 s.shiftIdx1
  (bitByte r.1, { s with shiftIdx1 := r.2 })

/-- Write of the input strobe, 0x4016 (R388). -/
def writeStrobe (v : Byte) (s : State) : State :=
  { s with strobe := v.getLsbD 0, shiftIdx0 := 0, shiftIdx1 := 0 }

/-! ## Audio and the read dispatcher -/

/-- The audio registers of both directions, 0x4000 to 0x4013 and 0x4015 (R392). -/
def isAudio (m : Nat) : Bool := (decide (0x4000 ≤ m) && decide (m ≤ 0x4013)) || m == 0x4015

/-- `DispatchRead(m)`: the byte and the state a device read leaves, where a register answers reads
(20_memory.md R82); none where there is no mapping (R84). -/
def dispatchRead (m : Nat) (s : State) : Option (Byte × State) :=
  if m = 0x2002 then
    some (s.ppu.statusByte, s.setPpu (s.ppu.afterStatusRead s.cfg.statusReadClearsVblank))
  else if m = 0x2004 then some (s.ppu.readOamData, s)
  else if m = 0x2007 then
    let r := s.ppu.readData s.cfg.mirroring
    some (r.1, s.setPpu r.2)
  else if m = 0x4016 then some (readPort0 s)
  else if m = 0x4017 then some (readPort1 s)
  else if isAudio m then some (0#8, s)
  else none

end Sys2Proof.Machine
end

