-- ==== Sys2Proof/Machine/Ops.lean ====
section
/-! DEFINITION. The named operations over memory and registers that every instruction goes through:
the byte read and write of the processor space with mirroring, static ranges, dispatcher and fallback
(20_memory.md R80, R81), OAM DMA, the stack (44_stack_flags.md), interrupt entry and the return from a
handler (45_control_system.md R332 to R334), and reset (70_reset_and_hazards.md R550). -/

namespace Sys2Proof.Machine

/-! ## Register writes -/

def State.setA (s : State) (v : Byte) : State := { s with a := v }
def State.setX (s : State) (v : Byte) : State := { s with x := v }
def State.setY (s : State) (v : Byte) : State := { s with y := v }
def State.setSp (s : State) (v : Byte) : State := { s with sp := v }
def State.setP (s : State) (v : Byte) : State := { s with p := v }
def State.setPc (s : State) (v : Addr) : State := { s with pc := v }

/-- A flag of the state's flag byte. -/
def State.flag (s : State) (f : Flag) : Bool := getFlag f s.p

/-! ## The processor-space byte read and write -/

/-- `CpuRead(a)`: the byte and the state the read leaves (R80, R77). -/
def cpuRead (a : Addr) (s : State) : Byte × State :=
  let m := mirrorCpu s.cfg a
  match translateCpu m with
  | some _ => (peek s a, s)
  | none =>
    match dispatchRead m s with
    | some r => r
    | none => (s.fallback.read m, logAnomaly m .read s)

/-- `n` bytes of OAM DMA from byte `i` on: full reads of page `page`, copied to the same place in OAM
(46_device_registers.md R380). -/
def oamDmaFrom : Nat → Nat → Byte → State → State
  | 0, _, _, s => s
  | n + 1, i, page, s =>
    let r := cpuRead (BitVec.ofNat 16 (page.toNat * 256 + i)) s
    oamDmaFrom n (i + 1) page
      (r.2.setPpu { r.2.ppu with oam := r.2.ppu.oam.write i r.1 })

/-- Write of OAM DMA, 0x4014: 256 bytes, the cursor unchanged (R380). -/
def oamDma (page : Byte) (s : State) : State := oamDmaFrom 256 0 page s

/-- `DispatchWrite(m, v)`: the state a device write leaves, where a register answers writes
(20_memory.md R83); none where there is no mapping (R84). -/
def dispatchWrite (m : Nat) (v : Byte) (s : State) : Option State :=
  if m = 0x2000 then some (s.setPpu (s.ppu.writeControl v))
  else if m = 0x2001 then some (s.setPpu (s.ppu.writeMask v))
  else if m = 0x2003 then some (s.setPpu (s.ppu.writeOamAddr v))
  else if m = 0x2004 then some (s.setPpu (s.ppu.writeOamData v))
  else if m = 0x2005 then some (s.setPpu (s.ppu.writeScroll v))
  else if m = 0x2006 then some (s.setPpu (s.ppu.writeAddress v))
  else if m = 0x2007 then some (s.setPpu (s.ppu.writeData s.cfg.mirroring v))
  else if m = 0x4014 then some (oamDma v s)
  else if m = 0x4016 then some (writeStrobe v s)
  else if isAudio m || m == 0x4017 then some s
  else none

/-- `CpuWrite(a, v)` (R81, R75, R77). -/
def cpuWrite (a : Addr) (v : Byte) (s : State) : State :=
  let m := mirrorCpu s.cfg a
  if 0x8000 ≤ m then s
  else
    match translateCpu m with
    | some r => if r.writable then storeCell s m v else s
    | none =>
      match dispatchWrite m v s with
      | some t => t
      | none => { logAnomaly m .write s with fallback := s.fallback.write m v }

/-- `Read16(a)`, low byte first (R120). -/
def read16 (a : Addr) (s : State) : Addr × State :=
  let lo := cpuRead a s
  let hi := cpuRead (a + 1) lo.2
  (word16 lo.1 hi.1, hi.2)

/-! ## The stack (44_stack_flags.md R280, R281) -/

/-- The address the stack pointer designates: 0x0100 + SP (10_state.md R24). -/
def stackAddr (sp : Byte) : Addr := word16 sp 0x01#8

/-- `Push(v)`: store, then decrement within the page. -/
def push (v : Byte) (s : State) : State :=
  let t := cpuWrite (stackAddr s.sp) v s
  t.setSp (s.sp - 1)

/-- `Pull()`: increment within the page, then load. -/
def pull (s : State) : Byte × State :=
  let sp := s.sp + 1
  cpuRead (stackAddr sp) (s.setSp sp)

/-! ## Interrupts: entry and return (45_control_system.md R332 to R334) -/

/-- Which request is taken. -/
inductive InterruptKind where
  | nmi
  | irq
deriving DecidableEq, Repr

/-- A request is pending (R330). -/
def State.pending (s : State) : Bool := s.nmiPending || s.irqPending

/-- The request an entry takes: "NMI pending wins over IRQ pending" (R332). -/
def interruptKind (s : State) : InterruptKind := if s.nmiPending then .nmi else .irq

/-- The vector of a request in layer 2 (20_memory.md R129). -/
def vectorOf : InterruptKind → Addr
  | .nmi => 0xFFFA#16
  | .irq => 0xFFFE#16

/-- The part of `Enter()` both layers share: both pending bits cleared, the flag byte pushed as held,
interrupt-disable set, the context changed (R332). -/
def enterHandler (k : InterruptKind) (s : State) : State :=
  let t := push s.p { s with nmiPending := false, irqPending := false }
  { t with
    p := setFlag .I true t.p
    ctx := match k with
      | .nmi => .inNmi
      | .irq => .inIrq }

/-- `Enter()` in layer 2: the shared part, then `ret_pc <- PC` and `PC` from the vector (R332). -/
def enterInterrupt (s : State) : State :=
  let k := interruptKind s
  let t := enterHandler k s
  let r := read16 (vectorOf k) { t with retPc := t.pc }
  r.2.setPc r.1

/-- The handler return both layers share: the flag byte restored, the context Normal (R334). -/
def leaveHandler (s : State) : State :=
  let r := pull s
  { r.2 with p := wholeByte r.1, ctx := .normal }

/-- The handler return of layer 2, by RTI or by an abort: also `PC <- ret_pc` (R311, R333). -/
def returnFromHandler (s : State) : State :=
  let t := leaveHandler s
  t.setPc t.retPc

/-! ## Reset -/

/-- `Reset()` on a machine that has been reset before: program storage from its pristine copy, the host's
controls kept, everything else at its reset value (R550, R551, R553). -/
def restart (s : State) : State := State.boot s.cfg s.prgPristine s.controls

/-- Configuration and first reset: an unsupported MIRRORING is refused before reset (20_memory.md R111,
70_reset_and_hazards.md R560). -/
def powerOn (mode : MirroringMode) (c : Config) : StepResult :=
  match mode with
  | .horizontal => .next (State.firstReset { c with mirroring := .horizontal })
  | .vertical => .next (State.firstReset { c with mirroring := .vertical })
  | .oneScreen => .refused .unsupportedMirroring
  | .fourScreen => .refused .unsupportedMirroring

end Sys2Proof.Machine
end

