-- ==== Sys2Proof/Machine/Operands.lean ====
section
/-! DEFINITION. Addressing modes and operand forms: the effective address of every memory mode
(40_addressing_modes.md R161 to R173), `Operand()` (41_arithmetic_compare.md R190), and the
read and write-back of the read-modify-write instructions (42_logic_shift.md R229). -/

namespace Sys2Proof.Machine

/-! ## Effective addresses -/

/-- An address of page zero. -/
def zeroPage (z : Byte) : Addr := word16 z 0x00#8

/-- The 16-bit pointer in page zero at `z`: both bytes come from page zero, `z + 1` wraps within it (R171,
R172). Page zero has no side effect on read, so `peek` is its `CpuRead` (log entry 21). -/
def zeroPagePointer (z : Byte) (s : State) : Addr :=
  word16 (peek s (zeroPage z)) (peek s (zeroPage (z + 1)))

/-- `zp` (R164). -/
def eaZp (z : Byte) (_s : State) : Addr := zeroPage z

/-- `zpx`: wraps inside page zero (R165). -/
def eaZpx (z : Byte) (s : State) : Addr := zeroPage (z + s.x)

/-- `zpy`: wraps inside page zero (R166). -/
def eaZpy (z : Byte) (s : State) : Addr := zeroPage (z + s.y)

/-- `abs` (R167). -/
def eaAbs (w : Addr) (_s : State) : Addr := w

/-- `abx`: wraps at the top of the address space (R168). -/
def eaAbx (w : Addr) (s : State) : Addr := w + s.x.zeroExtend 16

/-- `aby` (R169). -/
def eaAby (w : Addr) (s : State) : Addr := w + s.y.zeroExtend 16

/-- `izx`, indexed indirect (R171). -/
def eaIzx (z : Byte) (s : State) : Addr := zeroPagePointer (z + s.x) s

/-- `izy`, indirect indexed (R172). -/
def eaIzy (z : Byte) (s : State) : Addr := zeroPagePointer z s + s.y.zeroExtend 16

/-- `ind`, JMP only: both pointer bytes through `CpuRead`, the high byte from the same page as the low
byte (R170). -/
def jumpIndirect (w : Addr) (s : State) : Addr × State :=
  let lo := cpuRead w s
  let hi := cpuRead (word16 (lowByte w + 1) (highByte w)) lo.2
  (word16 lo.1 hi.1, hi.2)

/-- `rel`: the signed offset from the next instruction, at which PC already stands (R173). -/
def branchTarget (d : Byte) (s : State) : Addr := s.pc + d.signExtend 16

/-! ## Operand forms (00_scope.md R16) -/

/-- Where `Operand()` comes from: the immediate byte or a memory cell. -/
inductive Source where
  | imm (v : Byte)
  | mem (ea : Addr)
deriving DecidableEq, Repr

/-- `Operand()`, evaluated exactly once (R190): the value and the state its read leaves. -/
def readSource : Source → State → Byte × State
  | .imm v, s => (v, s)
  | .mem ea, s => cpuRead ea s

/-- The place a shift or rotate reads and writes back: `Src()` and `Dst(r)` of R229. -/
inductive Place where
  | acc
  | mem (ea : Addr)
deriving DecidableEq, Repr

/-- `Src()`. -/
def readPlace : Place → State → Byte × State
  | .acc, s => (s.a, s)
  | .mem ea, s => cpuRead ea s

/-- `Dst(r)`. -/
def writePlace : Place → Byte → State → State
  | .acc, r, s => s.setA r
  | .mem ea, r, s => cpuWrite ea r s

end Sys2Proof.Machine
end

