-- ==== Sys2Proof/Machine/Render.lean ====
section
/-! DEFINITION. The rendering pipeline of one scanline: colour lookup and sprites
(49_ppu_sprites_palette.md), background (48_ppu_background.md), and their composition
(47_ppu_timing.md R404). A row is a list of WIDTH pixels. -/

namespace Sys2Proof.Machine

/-! ## Colour lookup -/

/-- The average of the three colour channels, rounded down, in all three; alpha kept
(49_ppu_sprites_palette.md R481). -/
def Rgba.grey (c : Rgba) : Rgba :=
  let m := BitVec.ofNat 8 ((c.r.toNat + c.g.toNat + c.b.toNat) / 3)
  ⟨m, m, m, c.a⟩

/-- `Colour(c)`: the record at `c & 0x3F`, grey when the mask's greyscale bit or the host's override is set
(R480). -/
def colour (s : State) (c : Byte) : Rgba :=
  let e := s.cfg.palette.getD (c &&& 0x3F#8).toNat Rgba.blank
  if s.ppu.mask.getLsbD 0 || s.controls.forceGreyscale then Rgba.grey e else e

/-- A byte of pattern table `t` (10_state.md R41). -/
def Ppu.pattern (u : Ppu) (t : Bool) (off : Nat) : Byte :=
  if t then u.pattern1.read off else u.pattern0.read off

/-- The 2-bit pixel index of bit `b` of a row of a tile: the high plane, 8 bytes further, gives bit 1
(48_ppu_background.md R436). -/
def Ppu.tilePixel (u : Ppu) (t : Bool) (tile fy b : Nat) : Nat :=
  ((u.pattern t (tile * 16 + fy + 8)).getLsbD b).toNat * 2 + ((u.pattern t (tile * 16 + fy)).getLsbD b).toNat

/-! ## Background (48_ppu_background.md R431 to R437) -/

/-- Where background pixel `(x, y)` comes from: the slot's PPU base address, the tile's row and column, and
the pixel inside the tile (R432, R433). -/
structure BgPos where
  base : Nat
  row : Nat
  col : Nat
  fy : Nat
  fx : Nat
deriving DecidableEq, Repr

/-- The geometry of R431. -/
def bgPos (u : Ppu) (y x : Nat) : BgPos :=
  let yt := y + u.scrollY.toNat
  let xt := x + u.scrollX.toNat
  let slotX := ((u.ctrl.nametable.getLsbD 0).toNat + xt / 256) % 2
  let slotY := ((u.ctrl.nametable.getLsbD 1).toNat + yt / 240) % 2
  { base := 0x2000 + (slotY * 2 + slotX) * 0x0400
    row := (yt % 240) / 8
    col := (xt % 256) / 8
    fy := (yt % 240) % 8
    fx := (xt % 256) % 8 }

/-- The tile index at a position (R434). -/
def bgTile (mir : Mirroring) (u : Ppu) (p : BgPos) : Byte :=
  ppuRead mir u (BitVec.ofNat 16 (p.base + p.row * 32 + p.col))

/-- The 2-bit palette selector at a position (R435). -/
def bgSelector (mir : Mirroring) (u : Ppu) (p : BgPos) : Nat :=
  let attr := ppuRead mir u (BitVec.ofNat 16 (p.base + 960 + (p.row / 4) * 8 + p.col / 4))
  let shift := ((p.row % 4) / 2) * 4 + ((p.col % 4) / 2) * 2
  (attr.toNat >>> shift) % 4

/-- The 2-bit pixel index at a position; bit 7 of a plane byte is the leftmost pixel (R436). -/
def bgPixel (mir : Mirroring) (u : Ppu) (p : BgPos) : Nat :=
  u.tilePixel u.ctrl.bgTable (bgTile mir u p).toNat p.fy (7 - p.fx)

/-- What the background leaves of pixel `(x, y)`: index 0 is transparent (R437). -/
def bgOver (s : State) (y x : Nat) (old : Rgba) : Rgba :=
  let p := bgPos s.ppu y x
  let pix := bgPixel s.cfg.mirroring s.ppu p
  if pix = 0 then old
  else colour s (s.ppu.pal.read (bgSelector s.cfg.mirroring s.ppu p * 4 + pix))

/-- `Background(y)` on the pixels of a row from column `x` on. -/
def bgRowFrom (s : State) (y : Nat) : Nat → List Rgba → List Rgba
  | _, [] => []
  | x, q :: qs => bgOver s y x q :: bgRowFrom s y (x + 1) qs

/-- `Background(y)` (R431). -/
def background (s : State) (y : Nat) (row : List Rgba) : List Rgba := bgRowFrom s y 0 row

/-! ## Sprites (49_ppu_sprites_palette.md R460 to R470) -/

/-- One OAM entry (R460). -/
structure Sprite where
  y : Byte
  tile : Byte
  attr : Byte
  x : Byte
deriving DecidableEq, Repr

/-- Entry `i` of OAM (10_state.md R43). -/
def Ppu.sprite (u : Ppu) (i : Nat) : Sprite :=
  ⟨u.oam.read (4 * i), u.oam.read (4 * i + 1), u.oam.read (4 * i + 2), u.oam.read (4 * i + 3)⟩

/-- Height of every sprite: 16 in double-height mode, else 8 (R460). -/
def Ppu.spriteHeight (u : Ppu) : Nat := if u.ctrl.sprite16 then 16 else 8

/-- `Intersects(i, y)`: the top visible line is Y + 1 (R464). -/
def Ppu.intersects (u : Ppu) (i y : Nat) : Bool :=
  let top := (u.sprite i).y.toNat + 1
  decide (top ≤ y) && decide (y < top + u.spriteHeight)

/-- The pixel index of sprite `q` on line `y` at its screen column `c` (R463, R466, R467). -/
def Ppu.spritePixel (u : Ppu) (q : Sprite) (y c : Nat) : Nat :=
  let h := u.spriteHeight
  let r0 := y - (q.y.toNat + 1)
  let r := if q.attr.getLsbD 7 then h - 1 - r0 else r0
  let b := if q.attr.getLsbD 6 then c else 7 - c
  if u.ctrl.sprite16 then u.tilePixel (q.tile.getLsbD 0) ((q.tile &&& 0xFE#8).toNat + r / 8) (r % 8) b
  else u.tilePixel u.ctrl.spriteTable q.tile.toNat r b

/-- A row being drawn and the sprite-zero-hit flag. -/
structure SpriteRow where
  row : List Rgba
  hit : Bool
deriving DecidableEq, Repr

/-- Column `c` of sprite `i`: clipped at the right edge, transparent at index 0, and the hit flag set by a
drawn pixel of sprite 0 (R463, R469). -/
def drawColumn (s : State) (y i : Nat) (q : Sprite) (acc : SpriteRow) (c : Nat) : SpriteRow :=
  let px := q.x.toNat + c
  let pix := s.ppu.spritePixel q y c
  if s.cfg.width ≤ px ∨ pix = 0 then acc
  else
    { row := acc.row.set px (colour s (s.ppu.pal.read (0x10 + (q.attr.toNat % 4) * 4 + pix)))
      hit := acc.hit || i == 0 }

/-- Sprite `i` in one pass: skipped when it does not intersect the line or its priority bit is not the
pass's (R464, R465). -/
def drawSprite (s : State) (y : Nat) (behind : Bool) (acc : SpriteRow) (i : Nat) : SpriteRow :=
  let q := s.ppu.sprite i
  if s.ppu.intersects i y && q.attr.getLsbD 5 == behind then
    (List.range 8).foldl (drawColumn s y i q) acc
  else acc

/-- `SpritePass(y, behind)`: all 64 entries, 63 down to 0, so the lowest index ends on top (R463, R470). -/
def spritePass (s : State) (y : Nat) (behind : Bool) (acc : SpriteRow) : SpriteRow :=
  (List.range 64).reverse.foldl (drawSprite s y behind) acc

/-- The number of entries that intersect a line (R468). -/
def Ppu.spritesOn (u : Ppu) (y : Nat) : Nat := (List.range 64).countP fun i => u.intersects i y

/-- `SpriteEvaluate(y)` (R468). -/
def Ppu.evaluateSprites (u : Ppu) (y : Nat) : Ppu :=
  { u with
    spriteCount := u.spritesOn y
    overflow := u.overflow || decide (u.spritesOn y > 8) }

/-! ## One scanline (47_ppu_timing.md R404) -/

/-- The pixels of line `y` and the hit flag: fill, behind sprites, background, in-front sprites. -/
def composeRow (s : State) (y : Nat) : SpriteRow :=
  let sprites := s.ppu.mask.getLsbD 4
  let fill : SpriteRow :=
    ⟨List.replicate s.cfg.width (colour s (s.ppu.pal.read 0)), s.ppu.sprite0Hit⟩
  let behind := if sprites then spritePass s y true fill else fill
  let ground := if s.ppu.mask.getLsbD 3 then { behind with row := background s y behind.row } else behind
  if sprites then spritePass s y false ground else ground

/-- `RenderScanline(y)` (R404). -/
def renderScanline (y : Nat) (s : State) : State :=
  let r := composeRow s y
  let u := if s.ppu.mask.getLsbD 4 then s.ppu.evaluateSprites y else s.ppu
  s.setPpu { u with work := u.work.set y r.row, sprite0Hit := r.hit }

end Sys2Proof.Machine
end

