-- ==== Sys2Proof/Machine/Ppu.lean ====
section
/-! DEFINITION. How the PPU advances: its two counters and what happens at each scanline number
(47_ppu_timing.md R401 to R410). -/

namespace Sys2Proof.Machine

/-- `FinishFrame()`: the working buffer, vertical order reversed, becomes the output buffer, and the frame
counter moves (R405). -/
def finishFrame (s : State) : State :=
  s.setPpu { s.ppu with out := s.ppu.work.reverse, frameCount := s.ppu.frameCount + 1 }

/-- `StartVblank()`: the flag is set, and an NMI is requested if the control bit is set at that instant
(R406, R408). -/
def startVblank (s : State) : State :=
  { s with
    ppu := { s.ppu with vblank := true }
    nmiPending := s.nmiPending || s.ppu.ctrl.nmi }

/-- `WrapFrame()` (R409, R410). -/
def wrapFrame (s : State) : State :=
  s.setPpu { s.ppu with scanline := 0, sprite0Hit := false, vblank := false, overflow := false }

/-- The work of line `l` at its completion: render, or hand the frame over; then vertical blank (R403). -/
def lineWork (l : Nat) (s : State) : State :=
  let t :=
    if l < s.cfg.visibleHeight then renderScanline l s
    else if l = s.cfg.visibleHeight then finishFrame s
    else s
  if l = s.cfg.vblankStart then startVblank t else t

/-- The end of line `l`: its work, the next scanline number, and the wrap (R403). -/
def finishLine (l : Nat) (s : State) : State :=
  let t := lineWork l s
  let n := t.setPpu { t.ppu with scanline := l + 1 }
  if l + 1 = s.cfg.totalScanlines then wrapFrame n else n

/-- `PpuCycle()` (R403). -/
def ppuCycle (s : State) : State :=
  let c := s.ppu.cycle + 1
  if c < s.cfg.cyclesPerScanline then s.setPpu { s.ppu with cycle := c }
  else finishLine s.ppu.scanline (s.setPpu { s.ppu with cycle := 0 })

/-- `PpuAdvance(k)`: `k` PPU cycles (R401). -/
def ppuAdvance : Nat → State → State
  | 0, s => s
  | k + 1, s => ppuAdvance k (ppuCycle s)

end Sys2Proof.Machine
end

