-- ==== Sys2Proof/Machine/Sync.lean ====
section
/-! DEFINITION. The synchronisation checkpoint of layer 2 (45_control_system.md R330 to R336). Steps 4 and 5,
the throttle, are out of scope (00_scope.md R6, log entry 13). -/

namespace Sys2Proof.Machine

/-- Steps 2 and 3: a pending request is taken in context Normal and aborts the handler in any other
context; no handler nests (R332, R333). -/
def serveInterrupts (s : State) : State :=
  if s.pending then
    if s.ctx = .normal then enterInterrupt s else returnFromHandler s
  else s

/-- Step 6: a requested restart is performed (R336). -/
def serveRestart (s : State) : State := if s.restartRequested then restart s else s

/-- `Sync(n)` (R330, R331). -/
def sync (n : Nat) (s : State) : State :=
  serveRestart (serveInterrupts (ppuAdvance (ppuCpuRatio * n) s))

/-- A step while `paused`: no instruction executes and no PPU cycle elapses; a restart requested while paused
takes effect (30_encoding.md R133, 60_exceptions.md R546, log entry 7). -/
def holdPaused (s : State) : State := serveRestart s

end Sys2Proof.Machine
end

