-- ==== Sys2Proof/Machine/Arithmetic.lean ====
section
/-! DEFINITION. Arithmetic, compare, increment and decrement (41_arithmetic_compare.md). One shared operation
per mnemonic over its operand form, and one meaning per instruction over it. Every meaning is the effect of
the instruction alone, with PC already at the next instruction (30_encoding.md R133). -/

namespace Sys2Proof.Machine

/-! ## Operations -/

/-- ADC (R193); the decimal flag has no effect (R192). -/
def adc (o : Source) (s : State) : State :=
  let r := readSource o s
  let u := addCarry s.a r.1 (s.flag .C)
  (r.2.setA u.result).setP (arithFlags u s.p)

/-- SBC (R194); the decimal flag has no effect (R192). -/
def sbc (o : Source) (s : State) : State :=
  let r := readSource o s
  let u := subBorrow s.a r.1 (s.flag .C)
  (r.2.setA u.result).setP (arithFlags u s.p)

/-- CMP (R195). -/
def compareA (o : Source) (s : State) : State :=
  let r := readSource o s
  r.2.setP (compareFlags s.a r.1 s.p)

/-- CPX (R196). -/
def compareX (o : Source) (s : State) : State :=
  let r := readSource o s
  r.2.setP (compareFlags s.x r.1 s.p)

/-- CPY (R197). -/
def compareY (o : Source) (s : State) : State :=
  let r := readSource o s
  r.2.setP (compareFlags s.y r.1 s.p)

/-- INC: one read, one write of the same address, Z and N from the computed result (R198). -/
def inc (ea : Addr) (s : State) : State :=
  let r := cpuRead ea s
  let v := r.1 + 1
  (cpuWrite ea v r.2).setP (setZN v s.p)

/-- DEC (R199). -/
def dec (ea : Addr) (s : State) : State :=
  let r := cpuRead ea s
  let v := r.1 - 1
  (cpuWrite ea v r.2).setP (setZN v s.p)

/-- INX (R200). -/
def incX (s : State) : State := (s.setX (s.x + 1)).setP (setZN (s.x + 1) s.p)

/-- INY (R201). -/
def incY (s : State) : State := (s.setY (s.y + 1)).setP (setZN (s.y + 1) s.p)

/-- DEX (R202). -/
def decX (s : State) : State := (s.setX (s.x - 1)).setP (setZN (s.x - 1) s.p)

/-- DEY (R203). -/
def decY (s : State) : State := (s.setY (s.y - 1)).setP (setZN (s.y - 1) s.p)

/-! ## Meanings -/

/-- ADC, format imm (R193). -/
def execAdcImm (v : Byte) (s : State) : StepResult := .next (adc (.imm v) s)
/-- ADC, format zp (R193). -/
def execAdcZp (z : Byte) (s : State) : StepResult := .next (adc (.mem (eaZp z s)) s)
/-- ADC, format zpx (R193). -/
def execAdcZpx (z : Byte) (s : State) : StepResult := .next (adc (.mem (eaZpx z s)) s)
/-- ADC, format abs (R193). -/
def execAdcAbs (w : Addr) (s : State) : StepResult := .next (adc (.mem (eaAbs w s)) s)
/-- ADC, format abx (R193). -/
def execAdcAbx (w : Addr) (s : State) : StepResult := .next (adc (.mem (eaAbx w s)) s)
/-- ADC, format aby (R193). -/
def execAdcAby (w : Addr) (s : State) : StepResult := .next (adc (.mem (eaAby w s)) s)
/-- ADC, format izx (R193). -/
def execAdcIzx (z : Byte) (s : State) : StepResult := .next (adc (.mem (eaIzx z s)) s)
/-- ADC, format izy (R193). -/
def execAdcIzy (z : Byte) (s : State) : StepResult := .next (adc (.mem (eaIzy z s)) s)
/-- SBC, format imm (R194). -/
def execSbcImm (v : Byte) (s : State) : StepResult := .next (sbc (.imm v) s)
/-- SBC, format zp (R194). -/
def execSbcZp (z : Byte) (s : State) : StepResult := .next (sbc (.mem (eaZp z s)) s)
/-- SBC, format zpx (R194). -/
def execSbcZpx (z : Byte) (s : State) : StepResult := .next (sbc (.mem (eaZpx z s)) s)
/-- SBC, format abs (R194). -/
def execSbcAbs (w : Addr) (s : State) : StepResult := .next (sbc (.mem (eaAbs w s)) s)
/-- SBC, format abx (R194). -/
def execSbcAbx (w : Addr) (s : State) : StepResult := .next (sbc (.mem (eaAbx w s)) s)
/-- SBC, format aby (R194). -/
def execSbcAby (w : Addr) (s : State) : StepResult := .next (sbc (.mem (eaAby w s)) s)
/-- SBC, format izx (R194). -/
def execSbcIzx (z : Byte) (s : State) : StepResult := .next (sbc (.mem (eaIzx z s)) s)
/-- SBC, format izy (R194). -/
def execSbcIzy (z : Byte) (s : State) : StepResult := .next (sbc (.mem (eaIzy z s)) s)
/-- CMP, format imm (R195). -/
def execCmpImm (v : Byte) (s : State) : StepResult := .next (compareA (.imm v) s)
/-- CMP, format zp (R195). -/
def execCmpZp (z : Byte) (s : State) : StepResult := .next (compareA (.mem (eaZp z s)) s)
/-- CMP, format zpx (R195). -/
def execCmpZpx (z : Byte) (s : State) : StepResult := .next (compareA (.mem (eaZpx z s)) s)
/-- CMP, format abs (R195). -/
def execCmpAbs (w : Addr) (s : State) : StepResult := .next (compareA (.mem (eaAbs w s)) s)
/-- CMP, format abx (R195). -/
def execCmpAbx (w : Addr) (s : State) : StepResult := .next (compareA (.mem (eaAbx w s)) s)
/-- CMP, format aby (R195). -/
def execCmpAby (w : Addr) (s : State) : StepResult := .next (compareA (.mem (eaAby w s)) s)
/-- CMP, format izx (R195). -/
def execCmpIzx (z : Byte) (s : State) : StepResult := .next (compareA (.mem (eaIzx z s)) s)
/-- CMP, format izy (R195). -/
def execCmpIzy (z : Byte) (s : State) : StepResult := .next (compareA (.mem (eaIzy z s)) s)
/-- CPX, format imm (R196). -/
def execCpxImm (v : Byte) (s : State) : StepResult := .next (compareX (.imm v) s)
/-- CPX, format zp (R196). -/
def execCpxZp (z : Byte) (s : State) : StepResult := .next (compareX (.mem (eaZp z s)) s)
/-- CPX, format abs (R196). -/
def execCpxAbs (w : Addr) (s : State) : StepResult := .next (compareX (.mem (eaAbs w s)) s)
/-- CPY, format imm (R197). -/
def execCpyImm (v : Byte) (s : State) : StepResult := .next (compareY (.imm v) s)
/-- CPY, format zp (R197). -/
def execCpyZp (z : Byte) (s : State) : StepResult := .next (compareY (.mem (eaZp z s)) s)
/-- CPY, format abs (R197). -/
def execCpyAbs (w : Addr) (s : State) : StepResult := .next (compareY (.mem (eaAbs w s)) s)
/-- INC, format zp (R198). -/
def execIncZp (z : Byte) (s : State) : StepResult := .next (inc (eaZp z s) s)
/-- INC, format zpx (R198). -/
def execIncZpx (z : Byte) (s : State) : StepResult := .next (inc (eaZpx z s) s)
/-- INC, format abs (R198). -/
def execIncAbs (w : Addr) (s : State) : StepResult := .next (inc (eaAbs w s) s)
/-- INC, format abx (R198). -/
def execIncAbx (w : Addr) (s : State) : StepResult := .next (inc (eaAbx w s) s)
/-- DEC, format zp (R199). -/
def execDecZp (z : Byte) (s : State) : StepResult := .next (dec (eaZp z s) s)
/-- DEC, format zpx (R199). -/
def execDecZpx (z : Byte) (s : State) : StepResult := .next (dec (eaZpx z s) s)
/-- DEC, format abs (R199). -/
def execDecAbs (w : Addr) (s : State) : StepResult := .next (dec (eaAbs w s) s)
/-- DEC, format abx (R199). -/
def execDecAbx (w : Addr) (s : State) : StepResult := .next (dec (eaAbx w s) s)
/-- INX, format imp (R200). -/
def execInx (s : State) : StepResult := .next (incX s)
/-- INY, format imp (R201). -/
def execIny (s : State) : StepResult := .next (incY s)
/-- DEX, format imp (R202). -/
def execDex (s : State) : StepResult := .next (decX s)
/-- DEY, format imp (R203). -/
def execDey (s : State) : StepResult := .next (decY s)

end Sys2Proof.Machine
end

