-- ==== Sys2Proof/Machine/Control.lean ====
section
/-! DEFINITION. Control transfer, BRK, RTI and NOP (45_control_system.md). Every meaning finds PC at the next
instruction (30_encoding.md R133). -/

namespace Sys2Proof.Machine

/-! ## Operations -/

/-- BRK: raises an IRQ request and sets the break flag when interrupt-disable is clear, else changes nothing;
the entry is made by the next `Sync` (R310). -/
def breakRequest (s : State) : State :=
  if s.flag .I then s else { s.setP (setFlag .B true s.p) with irqPending := true }

/-- A conditional branch (R317). -/
def branch (taken : Bool) (d : Byte) (s : State) : State :=
  if taken then s.setPc (branchTarget d s) else s

/-- JSR: the address of its third byte, high byte pushed first (R315). -/
def jumpSubroutine (w : Addr) (s : State) : State :=
  let r := s.pc - 1
  (push (lowByte r) (push (highByte r) s)).setPc w

/-- RTS (R316). -/
def returnSubroutine (s : State) : State :=
  let lo := pull s
  let hi := pull lo.2
  hi.2.setPc (word16 lo.1 hi.1 + 1)

/-- JMP indirect (R314). -/
def jumpThrough (w : Addr) (s : State) : State :=
  let r := jumpIndirect w s
  r.2.setPc r.1

/-! ## Meanings -/

/-- BRK, format imp (R310). -/
def execBrk (s : State) : StepResult := .next (breakRequest s)
/-- RTI, format imp (R311): a fault in context Normal, else the handler return. -/
def execRti (s : State) : StepResult :=
  if s.ctx = .normal then .fault .returnOutsideHandler else .next (returnFromHandler s)
/-- NOP, format imp (R312). -/
def execNop (s : State) : StepResult := .next s
/-- JMP, format abs (R313). -/
def execJmpAbs (w : Addr) (s : State) : StepResult := .next (s.setPc w)
/-- JMP, format ind (R314). -/
def execJmpInd (w : Addr) (s : State) : StepResult := .next (jumpThrough w s)
/-- JSR, format abs (R315). -/
def execJsr (w : Addr) (s : State) : StepResult := .next (jumpSubroutine w s)
/-- RTS, format imp (R316). -/
def execRts (s : State) : StepResult := .next (returnSubroutine s)
/-- BCC, format rel (R318). -/
def execBcc (d : Byte) (s : State) : StepResult := .next (branch (!s.flag .C) d s)
/-- BCS, format rel (R319). -/
def execBcs (d : Byte) (s : State) : StepResult := .next (branch (s.flag .C) d s)
/-- BEQ, format rel (R320). -/
def execBeq (d : Byte) (s : State) : StepResult := .next (branch (s.flag .Z) d s)
/-- BNE, format rel (R321). -/
def execBne (d : Byte) (s : State) : StepResult := .next (branch (!s.flag .Z) d s)
/-- BMI, format rel (R322). -/
def execBmi (d : Byte) (s : State) : StepResult := .next (branch (s.flag .N) d s)
/-- BPL, format rel (R323). -/
def execBpl (d : Byte) (s : State) : StepResult := .next (branch (!s.flag .N) d s)
/-- BVC, format rel (R324). -/
def execBvc (d : Byte) (s : State) : StepResult := .next (branch (!s.flag .V) d s)
/-- BVS, format rel (R325). -/
def execBvs (d : Byte) (s : State) : StepResult := .next (branch (s.flag .V) d s)

end Sys2Proof.Machine
end

