-- ==== Sys2Proof/Machine/LoadStore.lean ====
section
/-! DEFINITION. Loads, stores and register transfers (43_load_store_transfer.md): one shared operation per
mnemonic and one meaning per instruction over it. -/

namespace Sys2Proof.Machine

/-! ## Operations -/

/-- LDA (R251). -/
def lda (o : Source) (s : State) : State :=
  let r := readSource o s
  (r.2.setA r.1).setP (setZN r.1 s.p)

/-- LDX (R252). -/
def ldx (o : Source) (s : State) : State :=
  let r := readSource o s
  (r.2.setX r.1).setP (setZN r.1 s.p)

/-- LDY (R253). -/
def ldy (o : Source) (s : State) : State :=
  let r := readSource o s
  (r.2.setY r.1).setP (setZN r.1 s.p)

/-- STA: no read of `ea`, no flag (R254). -/
def storeA (ea : Addr) (s : State) : State := cpuWrite ea s.a s

/-- STX (R255). -/
def storeX (ea : Addr) (s : State) : State := cpuWrite ea s.x s

/-- STY (R256). -/
def storeY (ea : Addr) (s : State) : State := cpuWrite ea s.y s

/-- A transfer to A, X or Y: the byte copied, Z and N from it (R257 to R261). -/
def copyToA (v : Byte) (s : State) : State := (s.setA v).setP (setZN v s.p)

def copyToX (v : Byte) (s : State) : State := (s.setX v).setP (setZN v s.p)

def copyToY (v : Byte) (s : State) : State := (s.setY v).setP (setZN v s.p)

/-! ## Meanings -/

/-- LDA, format imm (R251). -/
def execLdaImm (v : Byte) (s : State) : StepResult := .next (lda (.imm v) s)
/-- LDA, format zp (R251). -/
def execLdaZp (z : Byte) (s : State) : StepResult := .next (lda (.mem (eaZp z s)) s)
/-- LDA, format zpx (R251). -/
def execLdaZpx (z : Byte) (s : State) : StepResult := .next (lda (.mem (eaZpx z s)) s)
/-- LDA, format abs (R251). -/
def execLdaAbs (w : Addr) (s : State) : StepResult := .next (lda (.mem (eaAbs w s)) s)
/-- LDA, format abx (R251). -/
def execLdaAbx (w : Addr) (s : State) : StepResult := .next (lda (.mem (eaAbx w s)) s)
/-- LDA, format aby (R251). -/
def execLdaAby (w : Addr) (s : State) : StepResult := .next (lda (.mem (eaAby w s)) s)
/-- LDA, format izx (R251). -/
def execLdaIzx (z : Byte) (s : State) : StepResult := .next (lda (.mem (eaIzx z s)) s)
/-- LDA, format izy (R251). -/
def execLdaIzy (z : Byte) (s : State) : StepResult := .next (lda (.mem (eaIzy z s)) s)
/-- LDX, format imm (R252). -/
def execLdxImm (v : Byte) (s : State) : StepResult := .next (ldx (.imm v) s)
/-- LDX, format zp (R252). -/
def execLdxZp (z : Byte) (s : State) : StepResult := .next (ldx (.mem (eaZp z s)) s)
/-- LDX, format zpy (R252). -/
def execLdxZpy (z : Byte) (s : State) : StepResult := .next (ldx (.mem (eaZpy z s)) s)
/-- LDX, format abs (R252). -/
def execLdxAbs (w : Addr) (s : State) : StepResult := .next (ldx (.mem (eaAbs w s)) s)
/-- LDX, format aby (R252). -/
def execLdxAby (w : Addr) (s : State) : StepResult := .next (ldx (.mem (eaAby w s)) s)
/-- LDY, format imm (R253). -/
def execLdyImm (v : Byte) (s : State) : StepResult := .next (ldy (.imm v) s)
/-- LDY, format zp (R253). -/
def execLdyZp (z : Byte) (s : State) : StepResult := .next (ldy (.mem (eaZp z s)) s)
/-- LDY, format zpx (R253). -/
def execLdyZpx (z : Byte) (s : State) : StepResult := .next (ldy (.mem (eaZpx z s)) s)
/-- LDY, format abs (R253). -/
def execLdyAbs (w : Addr) (s : State) : StepResult := .next (ldy (.mem (eaAbs w s)) s)
/-- LDY, format abx (R253). -/
def execLdyAbx (w : Addr) (s : State) : StepResult := .next (ldy (.mem (eaAbx w s)) s)
/-- STA, format zp (R254). -/
def execStaZp (z : Byte) (s : State) : StepResult := .next (storeA (eaZp z s) s)
/-- STA, format zpx (R254). -/
def execStaZpx (z : Byte) (s : State) : StepResult := .next (storeA (eaZpx z s) s)
/-- STA, format abs (R254). -/
def execStaAbs (w : Addr) (s : State) : StepResult := .next (storeA (eaAbs w s) s)
/-- STA, format abx (R254). -/
def execStaAbx (w : Addr) (s : State) : StepResult := .next (storeA (eaAbx w s) s)
/-- STA, format aby (R254). -/
def execStaAby (w : Addr) (s : State) : StepResult := .next (storeA (eaAby w s) s)
/-- STA, format izx (R254). -/
def execStaIzx (z : Byte) (s : State) : StepResult := .next (storeA (eaIzx z s) s)
/-- STA, format izy (R254). -/
def execStaIzy (z : Byte) (s : State) : StepResult := .next (storeA (eaIzy z s) s)
/-- STX, format zp (R255). -/
def execStxZp (z : Byte) (s : State) : StepResult := .next (storeX (eaZp z s) s)
/-- STX, format zpy (R255). -/
def execStxZpy (z : Byte) (s : State) : StepResult := .next (storeX (eaZpy z s) s)
/-- STX, format abs (R255). -/
def execStxAbs (w : Addr) (s : State) : StepResult := .next (storeX (eaAbs w s) s)
/-- STY, format zp (R256). -/
def execStyZp (z : Byte) (s : State) : StepResult := .next (storeY (eaZp z s) s)
/-- STY, format zpx (R256). -/
def execStyZpx (z : Byte) (s : State) : StepResult := .next (storeY (eaZpx z s) s)
/-- STY, format abs (R256). -/
def execStyAbs (w : Addr) (s : State) : StepResult := .next (storeY (eaAbs w s) s)
/-- TAX, format imp (R257). -/
def execTax (s : State) : StepResult := .next (copyToX s.a s)
/-- TAY, format imp (R258). -/
def execTay (s : State) : StepResult := .next (copyToY s.a s)
/-- TXA, format imp (R259). -/
def execTxa (s : State) : StepResult := .next (copyToA s.x s)
/-- TYA, format imp (R260). -/
def execTya (s : State) : StepResult := .next (copyToA s.y s)
/-- TSX, format imp (R261). -/
def execTsx (s : State) : StepResult := .next (copyToX s.sp s)
/-- TXS, format imp (R262). -/
def execTxs (s : State) : StepResult := .next (s.setSp s.x)

end Sys2Proof.Machine
end

