-- ==== Sys2Proof/Machine/Logic.lean ====
section
/-! DEFINITION. Logic, bit test, shifts and rotates (42_logic_shift.md): one shared operation per mnemonic and
one meaning per instruction over it. -/

namespace Sys2Proof.Machine

/-! ## Operations -/

/-- AND (R221). -/
def andOp (o : Source) (s : State) : State :=
  let r := readSource o s
  let v := s.a &&& r.1
  (r.2.setA v).setP (setZN v s.p)

/-- ORA (R222). -/
def oraOp (o : Source) (s : State) : State :=
  let r := readSource o s
  let v := s.a ||| r.1
  (r.2.setA v).setP (setZN v s.p)

/-- EOR (R223). -/
def eorOp (o : Source) (s : State) : State :=
  let r := readSource o s
  let v := s.a ^^^ r.1
  (r.2.setA v).setP (setZN v s.p)

/-- BIT: the accumulator is unmodified (R224). -/
def bitTest (ea : Addr) (s : State) : State :=
  let r := cpuRead ea s
  r.2.setP (bitFlags s.a r.1 s.p)

/-- The common rule of the shifts and rotates: one read, one write of the same place, then C, Z and N; V is
never changed (R229). -/
def shiftOp (f : Byte → Bool → Shifted) (pl : Place) (s : State) : State :=
  let r := readPlace pl s
  let u := f r.1 (s.flag .C)
  (writePlace pl u.result r.2).setP (shiftFlags u s.p)

/-- ASL (R225). -/
def asl (pl : Place) (s : State) : State := shiftOp shiftLeft pl s

/-- LSR (R226). -/
def lsr (pl : Place) (s : State) : State := shiftOp shiftRight pl s

/-- ROL (R227). -/
def rol (pl : Place) (s : State) : State := shiftOp rotateLeft pl s

/-- ROR (R228). -/
def ror (pl : Place) (s : State) : State := shiftOp rotateRight pl s

/-! ## Meanings -/

/-- AND, format imm (R221). -/
def execAndImm (v : Byte) (s : State) : StepResult := .next (andOp (.imm v) s)
/-- AND, format zp (R221). -/
def execAndZp (z : Byte) (s : State) : StepResult := .next (andOp (.mem (eaZp z s)) s)
/-- AND, format zpx (R221). -/
def execAndZpx (z : Byte) (s : State) : StepResult := .next (andOp (.mem (eaZpx z s)) s)
/-- AND, format abs (R221). -/
def execAndAbs (w : Addr) (s : State) : StepResult := .next (andOp (.mem (eaAbs w s)) s)
/-- AND, format abx (R221). -/
def execAndAbx (w : Addr) (s : State) : StepResult := .next (andOp (.mem (eaAbx w s)) s)
/-- AND, format aby (R221). -/
def execAndAby (w : Addr) (s : State) : StepResult := .next (andOp (.mem (eaAby w s)) s)
/-- AND, format izx (R221). -/
def execAndIzx (z : Byte) (s : State) : StepResult := .next (andOp (.mem (eaIzx z s)) s)
/-- AND, format izy (R221). -/
def execAndIzy (z : Byte) (s : State) : StepResult := .next (andOp (.mem (eaIzy z s)) s)
/-- ORA, format imm (R222). -/
def execOraImm (v : Byte) (s : State) : StepResult := .next (oraOp (.imm v) s)
/-- ORA, format zp (R222). -/
def execOraZp (z : Byte) (s : State) : StepResult := .next (oraOp (.mem (eaZp z s)) s)
/-- ORA, format zpx (R222). -/
def execOraZpx (z : Byte) (s : State) : StepResult := .next (oraOp (.mem (eaZpx z s)) s)
/-- ORA, format abs (R222). -/
def execOraAbs (w : Addr) (s : State) : StepResult := .next (oraOp (.mem (eaAbs w s)) s)
/-- ORA, format abx (R222). -/
def execOraAbx (w : Addr) (s : State) : StepResult := .next (oraOp (.mem (eaAbx w s)) s)
/-- ORA, format aby (R222). -/
def execOraAby (w : Addr) (s : State) : StepResult := .next (oraOp (.mem (eaAby w s)) s)
/-- ORA, format izx (R222). -/
def execOraIzx (z : Byte) (s : State) : StepResult := .next (oraOp (.mem (eaIzx z s)) s)
/-- ORA, format izy (R222). -/
def execOraIzy (z : Byte) (s : State) : StepResult := .next (oraOp (.mem (eaIzy z s)) s)
/-- EOR, format imm (R223). -/
def execEorImm (v : Byte) (s : State) : StepResult := .next (eorOp (.imm v) s)
/-- EOR, format zp (R223). -/
def execEorZp (z : Byte) (s : State) : StepResult := .next (eorOp (.mem (eaZp z s)) s)
/-- EOR, format zpx (R223). -/
def execEorZpx (z : Byte) (s : State) : StepResult := .next (eorOp (.mem (eaZpx z s)) s)
/-- EOR, format abs (R223). -/
def execEorAbs (w : Addr) (s : State) : StepResult := .next (eorOp (.mem (eaAbs w s)) s)
/-- EOR, format abx (R223). -/
def execEorAbx (w : Addr) (s : State) : StepResult := .next (eorOp (.mem (eaAbx w s)) s)
/-- EOR, format aby (R223). -/
def execEorAby (w : Addr) (s : State) : StepResult := .next (eorOp (.mem (eaAby w s)) s)
/-- EOR, format izx (R223). -/
def execEorIzx (z : Byte) (s : State) : StepResult := .next (eorOp (.mem (eaIzx z s)) s)
/-- EOR, format izy (R223). -/
def execEorIzy (z : Byte) (s : State) : StepResult := .next (eorOp (.mem (eaIzy z s)) s)
/-- BIT, format zp (R224). -/
def execBitZp (z : Byte) (s : State) : StepResult := .next (bitTest (eaZp z s) s)
/-- BIT, format abs (R224). -/
def execBitAbs (w : Addr) (s : State) : StepResult := .next (bitTest (eaAbs w s) s)
/-- ASL, format acc (R225). -/
def execAslAcc (s : State) : StepResult := .next (asl .acc s)
/-- ASL, format zp (R225). -/
def execAslZp (z : Byte) (s : State) : StepResult := .next (asl (.mem (eaZp z s)) s)
/-- ASL, format zpx (R225). -/
def execAslZpx (z : Byte) (s : State) : StepResult := .next (asl (.mem (eaZpx z s)) s)
/-- ASL, format abs (R225). -/
def execAslAbs (w : Addr) (s : State) : StepResult := .next (asl (.mem (eaAbs w s)) s)
/-- ASL, format abx (R225). -/
def execAslAbx (w : Addr) (s : State) : StepResult := .next (asl (.mem (eaAbx w s)) s)
/-- LSR, format acc (R226). -/
def execLsrAcc (s : State) : StepResult := .next (lsr .acc s)
/-- LSR, format zp (R226). -/
def execLsrZp (z : Byte) (s : State) : StepResult := .next (lsr (.mem (eaZp z s)) s)
/-- LSR, format zpx (R226). -/
def execLsrZpx (z : Byte) (s : State) : StepResult := .next (lsr (.mem (eaZpx z s)) s)
/-- LSR, format abs (R226). -/
def execLsrAbs (w : Addr) (s : State) : StepResult := .next (lsr (.mem (eaAbs w s)) s)
/-- LSR, format abx (R226). -/
def execLsrAbx (w : Addr) (s : State) : StepResult := .next (lsr (.mem (eaAbx w s)) s)
/-- ROL, format acc (R227). -/
def execRolAcc (s : State) : StepResult := .next (rol .acc s)
/-- ROL, format zp (R227). -/
def execRolZp (z : Byte) (s : State) : StepResult := .next (rol (.mem (eaZp z s)) s)
/-- ROL, format zpx (R227). -/
def execRolZpx (z : Byte) (s : State) : StepResult := .next (rol (.mem (eaZpx z s)) s)
/-- ROL, format abs (R227). -/
def execRolAbs (w : Addr) (s : State) : StepResult := .next (rol (.mem (eaAbs w s)) s)
/-- ROL, format abx (R227). -/
def execRolAbx (w : Addr) (s : State) : StepResult := .next (rol (.mem (eaAbx w s)) s)
/-- ROR, format acc (R228). -/
def execRorAcc (s : State) : StepResult := .next (ror .acc s)
/-- ROR, format zp (R228). -/
def execRorZp (z : Byte) (s : State) : StepResult := .next (ror (.mem (eaZp z s)) s)
/-- ROR, format zpx (R228). -/
def execRorZpx (z : Byte) (s : State) : StepResult := .next (ror (.mem (eaZpx z s)) s)
/-- ROR, format abs (R228). -/
def execRorAbs (w : Addr) (s : State) : StepResult := .next (ror (.mem (eaAbs w s)) s)
/-- ROR, format abx (R228). -/
def execRorAbx (w : Addr) (s : State) : StepResult := .next (ror (.mem (eaAbx w s)) s)

end Sys2Proof.Machine
end

