-- ==== Sys2Proof/Machine/Stack.lean ====
section
/-! DEFINITION. Stack and flag-control instructions (44_stack_flags.md). -/

namespace Sys2Proof.Machine

/-! ## Operations -/

/-- PLA (R284). -/
def pullA (s : State) : State :=
  let r := pull s
  (r.2.setA r.1).setP (setZN r.1 s.p)

/-- PLP: a whole-byte flag write (R285, R293). -/
def pullP (s : State) : State :=
  let r := pull s
  r.2.setP (wholeByte r.1)

/-- A single-flag instruction (R286 to R292). -/
def writeFlag (f : Flag) (b : Bool) (s : State) : State := s.setP (setFlag f b s.p)

/-! ## Meanings -/

/-- PHA, format imp (R282). -/
def execPha (s : State) : StepResult := .next (push s.a s)
/-- PHP, format imp (R283). -/
def execPhp (s : State) : StepResult := .next (push s.p s)
/-- PLA, format imp (R284). -/
def execPla (s : State) : StepResult := .next (pullA s)
/-- PLP, format imp (R285). -/
def execPlp (s : State) : StepResult := .next (pullP s)
/-- CLC, format imp (R286). -/
def execClc (s : State) : StepResult := .next (writeFlag .C false s)
/-- SEC, format imp (R287). -/
def execSec (s : State) : StepResult := .next (writeFlag .C true s)
/-- CLI, format imp (R288). -/
def execCli (s : State) : StepResult := .next (writeFlag .I false s)
/-- SEI, format imp (R289). -/
def execSei (s : State) : StepResult := .next (writeFlag .I true s)
/-- CLD, format imp (R290). -/
def execCld (s : State) : StepResult := .next (writeFlag .D false s)
/-- SED, format imp (R291). -/
def execSed (s : State) : StepResult := .next (writeFlag .D true s)
/-- CLV, format imp (R292). -/
def execClv (s : State) : StepResult := .next (writeFlag .V false s)

end Sys2Proof.Machine
end

