-- ==== Sys2Proof/Machine/Timing.lean ====
section
/-! DEFINITION. The cycle count an instruction passes to `Sync`: the CYCLES parameter applied to its opcode
byte and its two flags (30_encoding.md R133, R150; 40_addressing_modes.md R168 to R174). The state is the
one the instruction starts in, with PC at the next instruction. -/

namespace Sys2Proof.Machine

/-- True when adding an index to the low byte of a base carries (R168, R172). -/
def indexCarries (lo idx : Byte) : Bool := decide (lo.toNat + idx.toNat ≥ 256)

/-- `page_crossed`: reported by `abx`, `aby` and `izy`, "false for every other mode" (R174). -/
def pageCrossed (m : Mode) (s : State) : Bool :=
  match m with
  | .abx w => indexCarries (lowByte w) s.x
  | .aby w => indexCarries (lowByte w) s.y
  | .izy z => indexCarries (peek s (zeroPage z)) s.y
  | .imp | .acc | .imm _ | .zp _ | .zpx _ | .zpy _ | .abs _ | .ind _ | .izx _ | .rel _ => false

/-- The target of a branch lies in another page than the next instruction (R150); false for every other
mode. -/
def targetOffPage (m : Mode) (s : State) : Bool :=
  match m with
  | .rel d => highByte (branchTarget d s) != highByte s.pc
  | .imp | .acc | .imm _ | .zp _ | .zpx _ | .zpy _ | .abs _ | .abx _ | .aby _ | .ind _ | .izx _ | .izy _ => false

/-- `branch_taken`: the condition of the branch, false for every other instruction
(45_control_system.md R317 to R325). -/
def branchTaken (m : Mnemonic) (s : State) : Bool :=
  match m with
  | .BCC => !s.flag .C
  | .BCS => s.flag .C
  | .BEQ => s.flag .Z
  | .BNE => !s.flag .Z
  | .BMI => s.flag .N
  | .BPL => !s.flag .N
  | .BVC => !s.flag .V
  | .BVS => s.flag .V
  | _ => false

/-- The page flag of CYCLES: `page_crossed`, and for a branch that is taken whether its target is off the page;
an untaken branch passes `false`, as R174 says of its mode (R150, log entry 8). -/
def pageFlag (i : Instr) (s : State) : Bool :=
  pageCrossed i.mode s || (branchTaken i.mnemonic s && targetOffPage i.mode s)

/-- CYCLES(op, page flag, branch-taken flag) of a configuration (00_scope.md R8, R150). -/
def cycleCount (c : Config) (op : Byte) (page taken : Bool) : Nat :=
  let e := c.cycles.getD op.toNat ⟨0, 0, 0, 0⟩
  match page, taken with
  | false, false => e.plain
  | true, false => e.crossed
  | false, true => e.taken
  | true, true => e.takenCrossed

/-- The count instruction `i`, starting in `s`, passes to `Sync`. -/
def cyclesOf (i : Instr) (s : State) : Nat :=
  cycleCount s.cfg i.opcode (pageFlag i s) (branchTaken i.mnemonic s)

end Sys2Proof.Machine
end

