-- ==== Sys2Proof/Machine/Fetch.lean ====
section
/-! DEFINITION. The fetch of the sequencer (30_encoding.md R132, R133): which bytes it reads, in which order
its two refusals are tested (60_exceptions.md R516), and how bytes are laid down for a fetch. -/

namespace Sys2Proof.Machine

/-- An address the sequencer may fetch from (R132). -/
def inFetchWindow (a : Addr) : Bool := decide (0x8000 ≤ a.toNat)

/-- What a fetch answers: the instruction, its length, and the state its reads leave. -/
structure Fetched where
  instr : Instr
  len : Nat
  state : State

/-- The fetch of one instruction at PC: the opcode byte, then byte 1 if the length is at least 2, then byte 2
if it is 3 (R133). The fetch window is tested first, then the opcode (R516). -/
def fetch (s : State) : Except Refusal Fetched :=
  if !inFetchWindow s.pc then .error .fetchOutsideProgramStorage
  else
    let op := cpuRead s.pc s
    match lookupOpcode op.1 with
    | none => .error (.undocumentedOpcode op.1 s.pc)
    | some row =>
      let len := row.length s.cfg.brkLength
      if len < 2 then .ok ⟨row.build 0 0, len, op.2⟩
      else if !inFetchWindow (s.pc + 1) then .error .fetchOutsideProgramStorage
      else
        let b1 := cpuRead (s.pc + 1) op.2
        if len ≠ 3 then .ok ⟨row.build b1.1 0, len, b1.2⟩
        else if !inFetchWindow (s.pc + 2) then .error .fetchOutsideProgramStorage
        else
          let b2 := cpuRead (s.pc + 2) b1.2
          .ok ⟨row.build b1.1 b2.1, len, b2.2⟩

/-- `PC <- next`, before the operation executes (R133). -/
def advancePc (len : Nat) (s : State) : State := s.setPc (s.pc + BitVec.ofNat 16 len)

/-- An instruction executed and its checkpoint performed (R133): a fault or a refusal of the operation ends
the step. -/
def executeAndSync (i : Instr) (s : State) : StepResult :=
  match exec i s with
  | .next t => .next (sync (cyclesOf i s) t)
  | .fault f => .fault f
  | .refused r => .refused r

/-- The sequencer's step when the host does not hold it paused (R133). -/
def runFetched (s : State) : StepResult :=
  match fetch s with
  | .error r => .refused r
  | .ok f => executeAndSync f.instr (advancePc f.len f.state)

/-- One byte laid down in program storage and in its pristine copy, as loading PRG_IMAGE does
(70_reset_and_hazards.md R551, log entry 6). -/
def loadByte (a : Addr) (v : Byte) (s : State) : State :=
  { s with
    prg := s.prg.write (a.toNat - 0x8000) v
    prgPristine := s.prgPristine.write (a.toNat - 0x8000) v }

/-- Where a loaded instruction is laid down: at PC if three bytes from PC on lie in program storage, else at
0x8000 (log entry 6). -/
def loadAddress (pc : Addr) : Addr :=
  if 0x8000 ≤ pc.toNat ∧ pc.toNat ≤ 0xFFFD then pc else 0x8000#16

/-- Three bytes laid down for the next fetch, PC set to them and the pause of the host lifted (log entry 6). -/
def loadInstruction (b0 b1 b2 : Byte) (s : State) : State :=
  let a := loadAddress s.pc
  let t := loadByte a b0 (loadByte (a + 1) b1 (loadByte (a + 2) b2 s))
  { t with pc := a, controls := { s.controls with paused := false } }

end Sys2Proof.Machine
end

