-- ==== Sys2Proof/Machine/Step.lean ====
section
/-! DEFINITION. One step of the machine: the sequencer of layer 2 (30_encoding.md R133). -/

namespace Sys2Proof.Machine

/-- `Step()` (R133): while the host holds `paused` there is no step but a requested restart (log entry 7). -/
def step (s : State) : Host.Outcome State Fault Refusal :=
  if s.controls.paused then .next (holdPaused s) else runFetched s

/-- The state with the instruction whose bits are `w` (byte 0 in bits 7:0) stored where `step` fetches its next
instruction; bits at and above `nbits` are 0 (log entry 6). -/
def State.withFetchWord (s : State) (nbits w : Nat) : State :=
  let v := w % 2 ^ nbits
  loadInstruction (BitVec.ofNat 8 v) (BitVec.ofNat 8 (v / 256)) (BitVec.ofNat 8 (v / 65536)) s

end Sys2Proof.Machine
end

