-- ==== Sys2Proof/Machine/HostSide.lean ====
section
/-! DEFINITION. The host agent (00_scope.md R17): what it may do between two steps of the machine. No step
calls these; a run with inputs applies them between steps (log entry 12). -/

namespace Sys2Proof.Machine

/-- A controller port (10_state.md R60). -/
inductive Port where
  | port0
  | port1
deriving DecidableEq, Repr

/-- The acts of the host (R60 to R62) and its reading of the frame counter, which resets it (R55). -/
inductive HostAction where
  /-- the button state of a port -/
  | setPad (p : Port) (pad : Pad)
  | setPaused (b : Bool)
  /-- the restart request is any value the host writes (R61) -/
  | setRestartRequested (b : Bool)
  | setSpeed (v : Speed)
  | setGreyscale (b : Bool)
  | takeFrameCount
deriving DecidableEq, Repr

/-- The state after an act of the host. -/
def hostAct (h : HostAction) (s : State) : State :=
  match h with
  | .setPad .port0 pad => { s with controls := { s.controls with pad0 := pad } }
  | .setPad .port1 pad => { s with controls := { s.controls with pad1 := pad } }
  | .setPaused b => { s with controls := { s.controls with paused := b } }
  | .setRestartRequested b => { s with restartRequested := b }
  | .setSpeed v => { s with controls := { s.controls with speedMultiplier := v } }
  | .setGreyscale b => { s with controls := { s.controls with forceGreyscale := b } }
  | .takeFrameCount => s.setPpu { s.ppu with frameCount := 0 }

/-- What the host reads: the finished frame and the frame counter (10_state.md R55, R63). -/
def hostFrame (s : State) : Frame × Nat := (s.ppu.out, s.ppu.frameCount)

end Sys2Proof.Machine
end

