-- ==== Sys2Proof/Machine/OperationPort.lean ====
section
/-! DEFINITION. Layer 1, the operation port (00_scope.md R2, 30_encoding.md R130): what an operation request of
the translated program does, and the checkpoint `Sync` as that program sees it (45_control_system.md R330 to
R336). The program itself, its entry points and its control flow are outside the machine (R340 to R342;
log entry 20). -/

namespace Sys2Proof.Machine

/-- An operand form as the source of `Operand()` (00_scope.md R16). -/
def Form.source : Form → Option Source
  | .imm v => some (.imm v)
  | .mem ea => some (.mem ea)
  | .implied | .acc => none

/-- An operand form as the place of a shift or rotate. -/
def Form.place : Form → Option Place
  | .acc => some .acc
  | .mem ea => some (.mem ea)
  | .implied | .imm _ => none

/-- An operand form as a memory address. -/
def Form.address : Form → Option Addr
  | .mem ea => some ea
  | .implied | .acc | .imm _ => none

/-- The effect of an operation on a resolved operand form (41_arithmetic_compare.md to 45_control_system.md
R310, R312), none for a control transfer and for a form of the wrong kind. -/
def runOperation (m : Mnemonic) (f : Form) (s : State) : Option State :=
  match m with
  | .ADC => (Form.source f).map fun o => adc o s
  | .SBC => (Form.source f).map fun o => sbc o s
  | .CMP => (Form.source f).map fun o => compareA o s
  | .CPX => (Form.source f).map fun o => compareX o s
  | .CPY => (Form.source f).map fun o => compareY o s
  | .AND => (Form.source f).map fun o => andOp o s
  | .ORA => (Form.source f).map fun o => oraOp o s
  | .EOR => (Form.source f).map fun o => eorOp o s
  | .LDA => (Form.source f).map fun o => lda o s
  | .LDX => (Form.source f).map fun o => ldx o s
  | .LDY => (Form.source f).map fun o => ldy o s
  | .ASL => (Form.place f).map fun l => asl l s
  | .LSR => (Form.place f).map fun l => lsr l s
  | .ROL => (Form.place f).map fun l => rol l s
  | .ROR => (Form.place f).map fun l => ror l s
  | .INC => (Form.address f).map fun ea => inc ea s
  | .DEC => (Form.address f).map fun ea => dec ea s
  | .BIT => (Form.address f).map fun ea => bitTest ea s
  | .STA => (Form.address f).map fun ea => storeA ea s
  | .STX => (Form.address f).map fun ea => storeX ea s
  | .STY => (Form.address f).map fun ea => storeY ea s
  | .INX => some (incX s)
  | .INY => some (incY s)
  | .DEX => some (decX s)
  | .DEY => some (decY s)
  | .TAX => some (copyToX s.a s)
  | .TAY => some (copyToY s.a s)
  | .TXA => some (copyToA s.x s)
  | .TYA => some (copyToA s.y s)
  | .TSX => some (copyToX s.sp s)
  | .TXS => some (s.setSp s.x)
  | .PHA => some (push s.a s)
  | .PHP => some (push s.p s)
  | .PLA => some (pullA s)
  | .PLP => some (pullP s)
  | .CLC => some (writeFlag .C false s)
  | .SEC => some (writeFlag .C true s)
  | .CLI => some (writeFlag .I false s)
  | .SEI => some (writeFlag .I true s)
  | .CLD => some (writeFlag .D false s)
  | .SED => some (writeFlag .D true s)
  | .CLV => some (writeFlag .V false s)
  | .BRK => some (breakRequest s)
  | .NOP => some s
  | .JMP | .JSR | .RTS | .RTI | .BCC | .BCS | .BEQ | .BNE | .BMI | .BPL | .BVC | .BVS => none

/-- The effect of a request: a request can only name an operation and a form that exist (R130, R145). -/
def runRequest (r : Request) (s : State) : Option State :=
  if r.wellFormed then runOperation r.op r.form s else none

/-- What `Sync` asks of the translated program. -/
inductive SyncAnswer where
  /-- `Sync` returns false: go on -/
  | proceed
  /-- call the NMI or IRQ entry point; when it returns, `portHandlerReturn` (R332) -/
  | callHandler (k : InterruptKind)
  /-- `Sync` returns true: return at once (R333, R336, R341) -/
  | leave
deriving DecidableEq, Repr

/-- Step 6 as the program sees it: true when a restart is requested; the frame loop then performs
`portRestart` (R336). -/
def restartAnswer (s : State) : SyncAnswer := if s.restartRequested then .leave else .proceed

/-- `Sync(n)` of layer 1 up to the point where it calls a handler or returns (R330 to R333, R336). -/
def portSync (n : Nat) (s : State) : State × SyncAnswer :=
  let t := ppuAdvance (ppuCpuRatio * n) s
  if t.pending then
    if t.ctx = .normal then
      (enterHandler (interruptKind t) t, .callHandler (interruptKind t))
    else (t, .leave)
  else (t, restartAnswer t)

/-- What the interrupted `Sync` does when the handler's entry point returns: the flag byte and the context
restored, then step 6 (R334). -/
def portHandlerReturn (s : State) : State × SyncAnswer :=
  let t := leaveHandler s
  (t, restartAnswer t)

/-- The reset of the frame loop after a restart request has unwound the program (R336); the reset entry point
is then invoked (R550). -/
def portRestart (s : State) : State := serveRestart s

/-- A native return from the reset entry point: "ends the source's reset-to-reset cycle and the frame loop
resets again", requested or not (R343 (c)); the reset entry point is then invoked (R550). Layer 2 has no such
event. -/
def portEntryReturn (s : State) : State := restart s

end Sys2Proof.Machine
end

