-- ==== Sys2Proof/Safety.lean ====
section
/-! DEFINITION. The terms claims about the machine are stated in: the machine's invariant, what a safe run is,
and what each instruction reads, stores to and may write. -/

namespace Sys2Proof.Machine

/-! ## The invariant -/

/-- Size in bytes of a backing array (10_state.md R35). -/
def Backing.size : Backing → Nat
  | .zp => 0x100
  | .stk => 0x100
  | .ram => 0x600
  | .sram => 0x2000
  | .prg => 0x8000
  | .fallback => 0x10000

/-- Size in bytes of a PPU memory (R41, R42, R44). -/
def PpuBacking.size : PpuBacking → Nat
  | .pattern0 => 0x1000
  | .pattern1 => 0x1000
  | .nametable0 => 0x400
  | .nametable1 => 0x400
  | .pal => 0x20

/-- A memory in canonical form inside its array. -/
abbrev Memory.good (n : Nat) (m : Memory) : Prop := Memory.wf m ∧ Memory.within n m

/-- A frame buffer of the configured shape (R57, R58). -/
def Frame.shaped (c : Config) (f : Frame) : Prop :=
  f.length = c.visibleHeight ∧ ∀ row ∈ f, row.length = c.width

/-- What holds in every state the machine can reach with a configuration of this machine. -/
structure Inv (s : State) : Prop where
  /-- the configuration meets its constraints -/
  config : s.cfg.WellFormed
  /-- "unused flag is always set after any flag write" (R27) -/
  unused : getFlag .U s.p = true
  /-- every processor-space array is canonical and inside its size (R35) -/
  arrays : ∀ b : Backing, (s.memory b).good b.size
  /-- `prg` always equals `prg_pristine` (R36) -/
  pristine : s.prgPristine = s.prg
  /-- every PPU memory is canonical and inside its size (R41, R42, R44) -/
  ppuArrays : ∀ b : PpuBacking, (s.ppu.memory b).good b.size
  /-- OAM is canonical and inside its 256 bytes (R43) -/
  oam : s.ppu.oam.good 0x100
  /-- the palette cells 0x10, 0x14, 0x18 and 0x1C are never reached (R44) -/
  hiddenCells : ∀ c ∈ s.ppu.pal, c.1 ≠ 0x10 ∧ c.1 ≠ 0x14 ∧ c.1 ≠ 0x18 ∧ c.1 ≠ 0x1C
  /-- each shift index is 0 to 8 (R37) -/
  shift0 : s.shiftIdx0 ≤ 8
  shift1 : s.shiftIdx1 ≤ 8
  /-- the counter ranges between steps (47_ppu_timing.md R402) -/
  cycle : s.ppu.cycle < s.cfg.cyclesPerScanline
  scanline : s.ppu.scanline < s.cfg.totalScanlines
  /-- 0 to 64 (R56) -/
  sprites : s.ppu.spriteCount ≤ 64
  work : Frame.shaped s.cfg s.ppu.work
  out : Frame.shaped s.cfg s.ppu.out

/-- A step that neither faults nor is refused. -/
def SafeStep (s : State) : Prop := ∃ t, step s = .next t

/-- A state in which no access has been anomalous since reset (20_memory.md R86). -/
def AnomalyFree (s : State) : Prop := s.anomalies = []

/-! ## What an instruction reads and stores to -/

/-- The effective address of a memory mode, none for the others (40_addressing_modes.md R164 to R172). -/
def modeAddress (m : Mode) (s : State) : Option Addr :=
  match m with
  | .zp z => some (eaZp z s)
  | .zpx z => some (eaZpx z s)
  | .zpy z => some (eaZpy z s)
  | .abs w => some (eaAbs w s)
  | .abx w => some (eaAbx w s)
  | .aby w => some (eaAby w s)
  | .izx z => some (eaIzx z s)
  | .izy z => some (eaIzy z s)
  | .imp | .acc | .imm _ | .ind _ | .rel _ => none

/-- `Operand()` of an instruction: the immediate byte, or what `CpuRead` of its effective address answers, with
the state that read leaves (41_arithmetic_compare.md R190). -/
def operandOf (i : Instr) (s : State) : Option (Byte × State) :=
  match i.mode with
  | .imm v => some (v, s)
  | m => (modeAddress m s).map fun ea => cpuRead ea s

/-- The resolved operand form of an instruction, as layer 1 gives it (30_encoding.md R130, R131). -/
def formOf (i : Instr) (s : State) : Form :=
  match i.mode with
  | .imm v => .imm v
  | .acc => .acc
  | m =>
    match modeAddress m s with
    | some ea => .mem ea
    | none => .implied

/-- The mnemonics whose memory forms write the byte at their effective address. -/
def storesToOperand : Mnemonic → Bool
  | .STA | .STX | .STY | .INC | .DEC | .ASL | .LSR | .ROL | .ROR => true
  | _ => false

/-- The mnemonics that push on the stack page. -/
def pushes : Mnemonic → Bool
  | .PHA | .PHP | .JSR => true
  | _ => false

/-- The address whose byte an instruction's own store writes, none for an instruction or a form that stores
nothing through its operand. -/
def storeAddress (i : Instr) (s : State) : Option Addr :=
  if storesToOperand i.mnemonic then modeAddress i.mode s else none

/-- The mnemonics that write `A`; ASL, LSR, ROL and ROR do so in their accumulator form only (10_state.md
R21). -/
def writesA (i : Instr) : Bool :=
  match i.mnemonic with
  | .ADC | .SBC | .AND | .EOR | .ORA | .LDA | .PLA | .TXA | .TYA => true
  | .ASL | .LSR | .ROL | .ROR => i.mode == .acc
  | _ => false

/-- The mnemonics that write `X` (R22). -/
def writesX : Mnemonic → Bool
  | .LDX | .TAX | .TSX | .INX | .DEX => true
  | _ => false

/-- The mnemonics that write `Y` (R23). -/
def writesY : Mnemonic → Bool
  | .LDY | .TAY | .INY | .DEY => true
  | _ => false

/-- The mnemonics that write `SP` (R24). -/
def writesSp : Mnemonic → Bool
  | .PHA | .PHP | .PLA | .PLP | .TXS | .JSR | .RTS | .RTI => true
  | _ => false

/-- The mnemonics that write Z and N (R28). -/
def writesZN : Mnemonic → Bool
  | .ADC | .SBC | .CMP | .CPX | .CPY | .AND | .ORA | .EOR | .BIT | .ASL | .LSR | .ROL | .ROR | .INC | .DEC
  | .INX | .INY | .DEX | .DEY | .LDA | .LDX | .LDY | .TAX | .TAY | .TXA | .TYA | .TSX | .PLA | .PLP | .RTI => true
  | _ => false

/-- The W column of R28 for the instructions: which mnemonics may write a flag. -/
def writesFlag (f : Flag) (m : Mnemonic) : Bool :=
  match f with
  | .C =>
    match m with
    | .ADC | .SBC | .CMP | .CPX | .CPY | .ASL | .LSR | .ROL | .ROR | .CLC | .SEC | .PLP | .RTI => true
    | _ => false
  | .Z | .N => writesZN m
  | .I =>
    match m with
    | .SEI | .CLI | .PLP | .RTI => true
    | _ => false
  | .D =>
    match m with
    | .SED | .CLD | .PLP | .RTI => true
    | _ => false
  | .B =>
    match m with
    | .BRK | .PLP | .RTI => true
    | _ => false
  | .U =>
    match m with
    | .PLP | .RTI => true
    | _ => false
  | .V =>
    match m with
    | .ADC | .SBC | .BIT | .CLV | .PLP | .RTI => true
    | _ => false

/-! ## Terms of the frame statements -/

/-- Every flag outside `fs` is the same in both flag bytes. -/
def FlagsKeptExcept (fs : List Flag) (p p' : Byte) : Prop := ∀ f, f ∉ fs → getFlag f p' = getFlag f p

/-- Z and N of a flag byte as `SetZN(v)` leaves them (00_scope.md R13). -/
def ZNFrom (v p' : Byte) : Prop := getFlag .Z p' = decide (v = 0#8) ∧ getFlag .N p' = v.getLsbD 7

/-- The eight branches. -/
def isBranch : Mnemonic → Bool
  | .BCC | .BCS | .BEQ | .BNE | .BMI | .BPL | .BVC | .BVS => true
  | _ => false

/-- The mnemonics that may leave PC elsewhere than at the next instruction. -/
def writesPc (m : Mnemonic) : Bool :=
  isBranch m || match m with
    | .JMP | .JSR | .RTS | .RTI => true
    | _ => false

/-- An instruction that makes no data access outside the stack page and page-zero pointers: no operand in
memory, and no JMP through a pointer. -/
def accessesNoOperand (i : Instr) : Bool :=
  match i.mode with
  | .imp | .acc | .imm _ | .rel _ => true
  | .abs _ => i.mnemonic == .JMP || i.mnemonic == .JSR
  | .zp _ | .zpx _ | .zpy _ | .abx _ | .aby _ | .ind _ | .izx _ | .izy _ => false

/-- Every array of the processor space is in canonical form. -/
abbrev MemoriesWf (s : State) : Prop := ∀ b : Backing, (s.memory b).wf

/-- The PPU cycle about to run completes a scanline (47_ppu_timing.md R403). -/
def atLineEnd (s : State) : Bool := decide (s.cfg.cyclesPerScanline ≤ s.ppu.cycle + 1)

end Sys2Proof.Machine
end

