-- ==== Sys2Proof/Certificates/Slice0/Obligations.lean ====
section
/-! DEFINITION. The statements about the machine, each a proposition named after what it states, in the order
of OBLIGATIONS.json. Unless a docstring says otherwise they hold for every state, reachable or not. Where a
statement supposes `regMirrorHi ≤ 0x8000` (or 0x4000), it is about configurations whose register mirror stays
below program storage (or the 0x4000 registers), as the spec's own (0x2008, 0x3000) does. -/

open Sys2Proof Sys2Proof.Machine

/-! ## Encoding and fetch -/

/-- 30_encoding.md R131, R136, R137: every instruction is a cell of R137, and decoding its bytes, whatever follows
them, gives it back with every operand. Derived: rests on decision D2 of the spec (92_eei_decisions.md). -/
def Obligations.DecodeOfEncode : Prop :=
  ∀ (i : Instr) (rest : List Byte), i.WellFormed ∧ decode (encode i ++ rest) = .ok i

/-- 30_encoding.md R131, R137: bytes that decode begin with the bytes of what they decode to, so no two instructions
share bytes. Derived: rests on decision D2 of the spec (92_eei_decisions.md). -/
def Obligations.EncodeOfDecode : Prop :=
  ∀ (bytes : List Byte) (i : Instr), decode bytes = .ok i → ∃ rest, bytes = encode i ++ rest

/-- 30_encoding.md R137, R145, R150: the opcode map has 151 rows with 151 different opcode bytes and 56 mnemonics,
and 105 bytes have no row; five words written out from R137 and R131 decode as they should; and the default CYCLES
table, with the base counts and the `+` cells of R137 written out (0 stands where a byte has no row). That the page
flag of a branch stands for its target's page is log entry 8. Derived: rests on decisions D2, D10 and D12 of the
spec (92_eei_decisions.md). -/
def Obligations.OpcodeMapAndWords : Prop :=
  opTable.length = 151 ∧ (opTable.map fun r => r.opcode).Nodup ∧
  (opTable.map fun r => r.mnemonic).dedup.length = 56 ∧
  ((List.range 256).countP fun n => (lookupOpcode (BitVec.ofNat 8 n)).isNone) = 105 ∧
  decode [0x69#8, 0x50#8] = .ok (.adcImm 0x50#8) ∧
  decode [0xBD#8, 0x34#8, 0x12#8] = .ok (.ldaAbx 0x1234#16) ∧
  decode [0x6C#8, 0xFF#8, 0x82#8] = .ok (.jmpInd 0x82FF#16) ∧
  decode [0xD0#8, 0xFB#8] = .ok (.bne 0xFB#8) ∧
  decode [0x02#8, 0x00#8, 0x00#8] = .error (.undocumentedOpcode 0x02#8) ∧
  let base : List Nat :=
    [7, 6, 0, 0, 0, 3, 5, 0, 3, 2, 2, 0, 0, 4, 6, 0] ++ [2, 5, 0, 0, 0, 4, 6, 0, 2, 4, 0, 0, 0, 4, 7, 0] ++
    [6, 6, 0, 0, 3, 3, 5, 0, 4, 2, 2, 0, 4, 4, 6, 0] ++ [2, 5, 0, 0, 0, 4, 6, 0, 2, 4, 0, 0, 0, 4, 7, 0] ++
    [6, 6, 0, 0, 0, 3, 5, 0, 3, 2, 2, 0, 3, 4, 6, 0] ++ [2, 5, 0, 0, 0, 4, 6, 0, 2, 4, 0, 0, 0, 4, 7, 0] ++
    [6, 6, 0, 0, 0, 3, 5, 0, 4, 2, 2, 0, 5, 4, 6, 0] ++ [2, 5, 0, 0, 0, 4, 6, 0, 2, 4, 0, 0, 0, 4, 7, 0] ++
    [0, 6, 0, 0, 3, 3, 3, 0, 2, 0, 2, 0, 4, 4, 4, 0] ++ [2, 6, 0, 0, 4, 4, 4, 0, 2, 5, 2, 0, 0, 5, 0, 0] ++
    [2, 6, 2, 0, 3, 3, 3, 0, 2, 2, 2, 0, 4, 4, 4, 0] ++ [2, 5, 0, 0, 4, 4, 4, 0, 2, 4, 2, 0, 4, 4, 4, 0] ++
    [2, 6, 0, 0, 3, 3, 5, 0, 2, 2, 2, 0, 4, 4, 6, 0] ++ [2, 5, 0, 0, 0, 4, 6, 0, 2, 4, 0, 0, 0, 4, 7, 0] ++
    [2, 6, 0, 0, 3, 3, 5, 0, 2, 2, 2, 0, 4, 4, 6, 0] ++ [2, 5, 0, 0, 0, 4, 6, 0, 2, 4, 0, 0, 0, 4, 7, 0]
  let plus : List Nat :=
    [0x7D, 0x79, 0x71, 0x3D, 0x39, 0x31, 0xDD, 0xD9, 0xD1, 0x5D, 0x59, 0x51,
      0xBD, 0xB9, 0xB1, 0xBE, 0xBC, 0x1D, 0x19, 0x11, 0xFD, 0xF9, 0xF1]
  let branches : List Nat := [0x90, 0xB0, 0xF0, 0x30, 0xD0, 0x10, 0x50, 0x70]
  defaultConfig.cycles.length = 256 ∧
  ∀ n < 256, base[n]? ≠ some 0 →
    let e := defaultConfig.cycles.getD n ⟨0, 0, 0, 0⟩
    base[n]? = some e.plain ∧
    (n ∈ branches → e.taken = e.plain + 1 ∧ e.takenCrossed = e.plain + 2) ∧
    (n ∉ branches → e.crossed = if n ∈ plus then e.plain + 1 else e.plain)

/-- 30_encoding.md R133, R150, 40_addressing_modes.md R168 to R174: when the bytes at PC decode to `i` and all of
`i` lies in program storage, a step is: PC moved past `i`, the meaning of `i`, then `Sync` with the CYCLES entry of
the opcode byte for the two flags; a fault or a refusal of the meaning is the step's. The taken flag is the
condition of the branch; the page flag is the carry of the index addition of abx, aby and izy, for a taken branch
that its target is on another page (log entry 8), and else false. What `Sync` does with the count is stated in
RestartAndPause. Derived: rests on decisions D1 and D12 of the spec (92_eei_decisions.md). -/
def Obligations.StepRunsDecodedInstruction : Prop :=
  ∀ (s : State) (i : Instr), s.controls.paused = false → s.cfg.regMirrorHi ≤ 0x8000 →
    0x8000 ≤ s.pc.toNat → s.pc.toNat + i.length s.cfg.brkLength ≤ 0x10000 →
    decode [peek s s.pc, peek s (s.pc + 1), peek s (s.pc + 2)] = .ok i →
    let t := s.setPc (s.pc + BitVec.ofNat 16 (i.length s.cfg.brkLength))
    let taken : Bool :=
      match i with
      | .bcc _ => !s.flag .C
      | .bcs _ => s.flag .C
      | .bne _ => !s.flag .Z
      | .beq _ => s.flag .Z
      | .bpl _ => !s.flag .N
      | .bmi _ => s.flag .N
      | .bvc _ => !s.flag .V
      | .bvs _ => s.flag .V
      | _ => false
    let page : Bool :=
      match i.mode with
      | .abx w => decide (256 ≤ w.toNat % 256 + s.x.toNat)
      | .aby w => decide (256 ≤ w.toNat % 256 + s.y.toNat)
      | .izy z => decide (256 ≤ (s.zp.read z.toNat).toNat + s.y.toNat)
      | .rel d => taken && decide ((BitVec.ofInt 16 (t.pc.toNat + d.toInt)).toNat / 256 ≠ t.pc.toNat / 256)
      | _ => false
    let e := s.cfg.cycles.getD (peek s s.pc).toNat ⟨0, 0, 0, 0⟩
    let n := if taken then (if page then e.takenCrossed else e.taken) else if page then e.crossed else e.plain
    step s =
      match exec i t with
      | .next u => .next (sync n u)
      | .fault f => .fault f
      | .refused r => .refused r

/-- 30_encoding.md R132, R145, 60_exceptions.md R516: the refusals of the fetch, the fetch window tested before the
opcode, the operand bytes after it. Derived: rests on decisions D10 and D11 of the spec (92_eei_decisions.md). -/
def Obligations.FetchRefusals : Prop :=
  ∀ s : State, s.controls.paused = false → s.cfg.regMirrorHi ≤ 0x8000 → s.cfg.brkLength ≤ 3 →
    (s.pc.toNat < 0x8000 → step s = .refused .fetchOutsideProgramStorage) ∧
    (0x8000 ≤ s.pc.toNat → lookupOpcode (peek s s.pc) = none →
      step s = .refused (.undocumentedOpcode (peek s s.pc) s.pc)) ∧
    (0x8000 ≤ s.pc.toNat → ∀ row, lookupOpcode (peek s s.pc) = some row →
      0x10000 < s.pc.toNat + row.length s.cfg.brkLength →
      step s = .refused .fetchOutsideProgramStorage)

/-- 60_exceptions.md R503: a step faults only for RTI in context Normal (the byte fetched at PC is 0x40), and is
refused only by the fetch: an undocumented opcode byte, or one of the three bytes at PC below 0x8000. Derived: rests
on decisions D10, D11 and D40 of the spec (92_eei_decisions.md). -/
def Obligations.StepStopsOnlyAsListed : Prop :=
  ∀ s : State,
    (∀ f, step s = .fault f →
      f = .returnOutsideHandler ∧ s.ctx = .normal ∧ 0x8000 ≤ s.pc.toNat ∧ (cpuRead s.pc s).1 = 0x40#8) ∧
    (∀ r, step s = .refused r →
      (r = .fetchOutsideProgramStorage ∧ ∃ k : Nat, k < 3 ∧ (s.pc + BitVec.ofNat 16 k).toNat < 0x8000) ∨
      (r = .undocumentedOpcode (cpuRead s.pc s).1 s.pc ∧ 0x8000 ≤ s.pc.toNat ∧
        lookupOpcode (cpuRead s.pc s).1 = none))

/-- 60_exceptions.md R500, R503, 41_arithmetic_compare.md R190: every instruction answers a next state in every
state, RTI in every context but Normal, where it faults. Derived: rests on decision D40 of the spec
(92_eei_decisions.md). -/
def Obligations.EveryInstructionCompletes : Prop :=
  ∀ (i : Instr) (s : State),
    (i.mnemonic ≠ .RTI ∨ s.ctx ≠ .normal → ∃ t, exec i s = .next t) ∧
    (i.mnemonic = .RTI → s.ctx = .normal → exec i s = .fault .returnOutsideHandler)

/-! ## Arithmetic and compare -/

/-- 41_arithmetic_compare.md R193: ADC in every form: the operand is read once, A, C, V, Z and N are as the rule
gives them, and nothing else changes beside what the operand's read does. -/
def Obligations.AdcResult : Prop :=
  ∀ (i : Instr) (s : State), i.mnemonic = .ADC →
    ∃ m t p', operandOf i s = some (m, t) ∧
      let sum := s.a.toNat + m.toNat + (s.flag .C).toNat
      let r : Byte := BitVec.ofNat 8 sum
      exec i s = .next { t with a := r, p := p' } ∧
      getFlag .C p' = decide (sum > 0xFF) ∧
      getFlag .V p' = decide ((~~~(s.a ^^^ m) &&& (s.a ^^^ r) &&& 0x80#8) ≠ 0#8) ∧
      ZNFrom r p' ∧ FlagsKeptExcept [.C, .V, .Z, .N] s.p p'

/-- 41_arithmetic_compare.md R194: SBC in every form, C set exactly when there is no borrow; and the law the rule
derives: it does what ADC of the complemented operand does. -/
def Obligations.SbcResult : Prop :=
  ∀ (i : Instr) (s : State), i.mnemonic = .SBC →
    ∃ m t p', operandOf i s = some (m, t) ∧
      let diff : Int := s.a.toNat - m.toNat - (1 - (s.flag .C).toNat : Int)
      let r : Byte := BitVec.ofNat 8 (diff % 256).toNat
      exec i s = .next { t with a := r, p := p' } ∧
      getFlag .C p' = decide (0 ≤ diff) ∧
      getFlag .V p' = decide (((s.a ^^^ m) &&& (s.a ^^^ r) &&& 0x80#8) ≠ 0#8) ∧
      ZNFrom r p' ∧ FlagsKeptExcept [.C, .V, .Z, .N] s.p p' ∧
      exec (.adcImm (m ^^^ 0xFF#8)) t = exec i s

/-- 41_arithmetic_compare.md R191: V after ADC and SBC says that the true signed result does not fit in 8 bits, and
when it does fit, A read as a signed byte is that result. -/
def Obligations.OverflowIsSigned : Prop :=
  ∀ (v : Byte) (s : State),
    let fits (n : Int) : Prop := -128 ≤ n ∧ n ≤ 127
    let sum : Int := s.a.toInt + v.toInt + (s.flag .C).toNat
    let diff : Int := s.a.toInt - v.toInt - (1 - (s.flag .C).toNat : Int)
    (∃ t, exec (.adcImm v) s = .next t ∧ (t.flag .V = false ↔ fits sum) ∧ (fits sum → t.a.toInt = sum)) ∧
    (∃ t, exec (.sbcImm v) s = .next t ∧ (t.flag .V = false ↔ fits diff) ∧ (fits diff → t.a.toInt = diff))

/-- 41_arithmetic_compare.md R195 to R197: CMP, CPX and CPY in every form: C is "register >= operand" unsigned,
Z and N come from the truncated difference, no register and no other flag changes. -/
def Obligations.CompareResults : Prop :=
  ∀ (i : Instr) (s : State) (reg : Byte),
    (i.mnemonic = .CMP ∧ reg = s.a) ∨ (i.mnemonic = .CPX ∧ reg = s.x) ∨ (i.mnemonic = .CPY ∧ reg = s.y) →
    ∃ m t p', operandOf i s = some (m, t) ∧ exec i s = .next { t with p := p' } ∧
      getFlag .C p' = decide (m.toNat ≤ reg.toNat) ∧
      ZNFrom (BitVec.ofNat 8 (reg.toNat + 256 - m.toNat)) p' ∧ FlagsKeptExcept [.C, .Z, .N] s.p p'

/-- 41_arithmetic_compare.md R198, R199: INC and DEC in every form: one read and one write of the same address, Z
and N from the computed value, no other flag. Derived: rests on decisions D47 and D13 of the spec
(92_eei_decisions.md). -/
def Obligations.IncDecMemory : Prop :=
  ∀ (i : Instr) (s : State) (d : Nat), (i.mnemonic = .INC ∧ d = 1) ∨ (i.mnemonic = .DEC ∧ d = 255) →
    ∃ ea v t p', modeAddress i.mode s = some ea ∧ cpuRead ea s = (v, t) ∧
      let r : Byte := BitVec.ofNat 8 (v.toNat + d)
      exec i s = .next { cpuWrite ea r t with p := p' } ∧ ZNFrom r p' ∧ FlagsKeptExcept [.Z, .N] s.p p'

/-- 41_arithmetic_compare.md R192, 10_state.md R28: an instruction that neither moves the whole flag byte nor writes
D does the same whatever D holds: the two next states differ in D alone. Derived: rests on decision D9 of the spec
(92_eei_decisions.md). -/
def Obligations.DecimalFlagHasNoEffect : Prop :=
  ∀ (i : Instr) (s t : State) (b : Bool), i.mnemonic ∉ [.PHP, .PLP, .RTI, .SED, .CLD] →
    exec i s = .next t → exec i (s.setP (setFlag .D b s.p)) = .next (t.setP (setFlag .D b t.p))

/-! ## Logic and shifts -/

/-- 42_logic_shift.md R221 to R223: AND, ORA and EOR in every form. Derived: rests on decision D47 of the spec
(92_eei_decisions.md). -/
def Obligations.LogicResults : Prop :=
  ∀ (i : Instr) (s : State) (f : Byte → Byte → Byte),
    (i.mnemonic = .AND ∧ f = fun a m => a &&& m) ∨ (i.mnemonic = .ORA ∧ f = fun a m => a ||| m) ∨
      (i.mnemonic = .EOR ∧ f = fun a m => a ^^^ m) →
    ∃ m t p', operandOf i s = some (m, t) ∧ exec i s = .next { t with a := f s.a m, p := p' } ∧
      ZNFrom (f s.a m) p' ∧ FlagsKeptExcept [.Z, .N] s.p p'

/-- 42_logic_shift.md R224: BIT in both forms: V and N are bits 6 and 7 of the operand, Z tests the
conjunction, the accumulator is unmodified, C is unchanged. -/
def Obligations.BitResult : Prop :=
  ∀ (i : Instr) (s : State), i.mnemonic = .BIT →
    ∃ m t p', operandOf i s = some (m, t) ∧ exec i s = .next { t with p := p' } ∧
      getFlag .V p' = m.getLsbD 6 ∧ getFlag .Z p' = decide ((m &&& s.a) = 0#8) ∧
      getFlag .N p' = m.getLsbD 7 ∧ FlagsKeptExcept [.V, .Z, .N] s.p p'

/-- 42_logic_shift.md R225, R227, R229: ASL and ROL in every form: the 9-bit value `v << 1` with 0 or the old carry
at bit 0; C is the old bit 7; the accumulator form writes A, a memory form reads and writes its address once.
Derived: rests on decision D13 of the spec (92_eei_decisions.md). -/
def Obligations.ShiftLeftResults : Prop :=
  ∀ (i : Instr) (s : State) (c : Nat),
    (i.mnemonic = .ASL ∧ c = 0) ∨ (i.mnemonic = .ROL ∧ c = (s.flag .C).toNat) →
    ∃ v t p',
      let r : Byte := BitVec.ofNat 8 (v.toNat * 2 + c)
      ((i.mode = .acc ∧ v = s.a ∧ t = { s with a := r }) ∨
        (∃ ea, modeAddress i.mode s = some ea ∧ v = (cpuRead ea s).1 ∧ t = cpuWrite ea r (cpuRead ea s).2)) ∧
      exec i s = .next { t with p := p' } ∧
      getFlag .C p' = v.getLsbD 7 ∧ ZNFrom r p' ∧ FlagsKeptExcept [.C, .Z, .N] s.p p'

/-- 42_logic_shift.md R226, R228, R229: LSR and ROR in every form: the 9-bit value with 0 or the old carry at bit 8,
shifted right once; C is the old bit 0. Derived: rests on decision D13 of the spec (92_eei_decisions.md). -/
def Obligations.ShiftRightResults : Prop :=
  ∀ (i : Instr) (s : State) (c : Nat),
    (i.mnemonic = .LSR ∧ c = 0) ∨ (i.mnemonic = .ROR ∧ c = (s.flag .C).toNat) →
    ∃ v t p',
      let r : Byte := BitVec.ofNat 8 ((c * 256 + v.toNat) / 2)
      ((i.mode = .acc ∧ v = s.a ∧ t = { s with a := r }) ∨
        (∃ ea, modeAddress i.mode s = some ea ∧ v = (cpuRead ea s).1 ∧ t = cpuWrite ea r (cpuRead ea s).2)) ∧
      exec i s = .next { t with p := p' } ∧
      getFlag .C p' = v.getLsbD 0 ∧ ZNFrom r p' ∧ FlagsKeptExcept [.C, .Z, .N] s.p p'

/-! ## Loads, stores, transfers -/

/-- 43_load_store_transfer.md R251 to R253: LDA, LDX and LDY in every form: the operand is the immediate byte, or
one byte read of the effective address (StoreResults states the address of every mode). Derived: rests on decision
D47 of the spec (92_eei_decisions.md). -/
def Obligations.LoadResults : Prop :=
  ∀ (i : Instr) (s : State), i.mnemonic = .LDA ∨ i.mnemonic = .LDX ∨ i.mnemonic = .LDY →
    ∃ m t p', operandOf i s = some (m, t) ∧
      (i.mode = .imm m ∧ t = s ∨ ∃ ea, modeAddress i.mode s = some ea ∧ cpuRead ea s = (m, t)) ∧
      ZNFrom m p' ∧ FlagsKeptExcept [.Z, .N] s.p p' ∧
      (i.mnemonic = .LDA → exec i s = .next { t with a := m, p := p' }) ∧
      (i.mnemonic = .LDX → exec i s = .next { t with x := m, p := p' }) ∧
      (i.mnemonic = .LDY → exec i s = .next { t with y := m, p := p' })

/-- 40_addressing_modes.md R164 to R172: the effective address of every memory mode, which every statement with
`modeAddress` or `operandOf` rests on, and none for the others. 43_load_store_transfer.md R254 to R256, 20_memory.md
R75, R81: STA, STX and STY in every form write their register once through the byte write at that address, with no
read of it and no flag: a stored byte reads back in RAM and save RAM, a store at or above 0x8000 changes nothing,
and no register changes. Derived: rests on decisions D45 and D47 of the spec (92_eei_decisions.md). -/
def Obligations.StoreResults : Prop :=
  ∀ s : State,
    (∀ (z : Byte) (w : Addr),
      let pointer (n : Nat) : Nat := (s.zp.read ((n + 1) % 256)).toNat * 256 + (s.zp.read (n % 256)).toNat
      modeAddress (.zp z) s = some (BitVec.ofNat 16 z.toNat) ∧
      modeAddress (.zpx z) s = some (BitVec.ofNat 16 ((z.toNat + s.x.toNat) % 256)) ∧
      modeAddress (.zpy z) s = some (BitVec.ofNat 16 ((z.toNat + s.y.toNat) % 256)) ∧
      modeAddress (.abs w) s = some w ∧
      modeAddress (.abx w) s = some (BitVec.ofNat 16 (w.toNat + s.x.toNat)) ∧
      modeAddress (.aby w) s = some (BitVec.ofNat 16 (w.toNat + s.y.toNat)) ∧
      modeAddress (.izx z) s = some (BitVec.ofNat 16 (pointer (z.toNat + s.x.toNat))) ∧
      modeAddress (.izy z) s = some (BitVec.ofNat 16 (pointer z.toNat + s.y.toNat)) ∧
      ∀ m ∈ [Mode.imp, .acc, .imm z, .ind w, .rel z], modeAddress m s = none) ∧
    ∀ (i : Instr) (v : Byte), MemoriesWf s →
      (i.mnemonic = .STA ∧ v = s.a) ∨ (i.mnemonic = .STX ∧ v = s.x) ∨ (i.mnemonic = .STY ∧ v = s.y) →
      ∃ ea t, modeAddress i.mode s = some ea ∧ exec i s = .next t ∧ t = cpuWrite ea v s ∧
        (mirrorCpu s.cfg ea < 0x800 ∨ 0x6000 ≤ mirrorCpu s.cfg ea ∧ mirrorCpu s.cfg ea < 0x8000 →
          peek t ea = v) ∧
        (0x8000 ≤ mirrorCpu s.cfg ea → t = s) ∧
        t.p = s.p ∧ t.a = s.a ∧ t.x = s.x ∧ t.y = s.y ∧ t.sp = s.sp ∧ t.pc = s.pc

/-- 41_arithmetic_compare.md R200 to R203, 43_load_store_transfer.md R257 to R262: INX, INY, DEX and DEY step modulo
256 and set Z and N; the transfers copy and set Z and N, but TXS, which changes no flag; nothing else changes.
Derived: rests on decision D47 of the spec (92_eei_decisions.md). -/
def Obligations.RegisterOnlyResults : Prop :=
  ∀ s : State,
    (∃ p', exec .inx s = .next { s with x := BitVec.ofNat 8 (s.x.toNat + 1), p := p' } ∧
      ZNFrom (BitVec.ofNat 8 (s.x.toNat + 1)) p' ∧ FlagsKeptExcept [.Z, .N] s.p p') ∧
    (∃ p', exec .iny s = .next { s with y := BitVec.ofNat 8 (s.y.toNat + 1), p := p' } ∧
      ZNFrom (BitVec.ofNat 8 (s.y.toNat + 1)) p' ∧ FlagsKeptExcept [.Z, .N] s.p p') ∧
    (∃ p', exec .dex s = .next { s with x := BitVec.ofNat 8 (s.x.toNat + 255), p := p' } ∧
      ZNFrom (BitVec.ofNat 8 (s.x.toNat + 255)) p' ∧ FlagsKeptExcept [.Z, .N] s.p p') ∧
    (∃ p', exec .dey s = .next { s with y := BitVec.ofNat 8 (s.y.toNat + 255), p := p' } ∧
      ZNFrom (BitVec.ofNat 8 (s.y.toNat + 255)) p' ∧ FlagsKeptExcept [.Z, .N] s.p p') ∧
    (∃ p', exec .tax s = .next { s with x := s.a, p := p' } ∧ ZNFrom s.a p' ∧ FlagsKeptExcept [.Z, .N] s.p p') ∧
    (∃ p', exec .tay s = .next { s with y := s.a, p := p' } ∧ ZNFrom s.a p' ∧ FlagsKeptExcept [.Z, .N] s.p p') ∧
    (∃ p', exec .txa s = .next { s with a := s.x, p := p' } ∧ ZNFrom s.x p' ∧ FlagsKeptExcept [.Z, .N] s.p p') ∧
    (∃ p', exec .tya s = .next { s with a := s.y, p := p' } ∧ ZNFrom s.y p' ∧ FlagsKeptExcept [.Z, .N] s.p p') ∧
    (∃ p', exec .tsx s = .next { s with x := s.sp, p := p' } ∧ ZNFrom s.sp p' ∧
      FlagsKeptExcept [.Z, .N] s.p p') ∧
    exec .txs s = .next { s with sp := s.x }

/-! ## Stack and flags -/

/-- 44_stack_flags.md R280 to R285: PHA and PHP store at `stk[SP]` and then decrement SP; PLA and PLP increment SP
and then load `stk[SP]`; PLP forces bit 5; and what was pushed is pulled, at every value of SP, with SP as before.
Derived: rests on decisions D8 and D48 of the spec (92_eei_decisions.md). -/
def Obligations.StackInstructions : Prop :=
  ∀ s : State,
    let v := s.stk.read (s.sp + 1).toNat
    exec .pha s = .next { s with stk := s.stk.write s.sp.toNat s.a, sp := s.sp - 1 } ∧
    exec .php s = .next { s with stk := s.stk.write s.sp.toNat s.p, sp := s.sp - 1 } ∧
    (∃ p', exec .pla s = .next { s with sp := s.sp + 1, a := v, p := p' } ∧ ZNFrom v p' ∧
      FlagsKeptExcept [.Z, .N] s.p p') ∧
    exec .plp s = .next { s with sp := s.sp + 1, p := v ||| 0x20#8 } ∧
    (s.stk.wf → ∀ junk : Byte,
      (∃ t u, exec .pha s = .next t ∧ exec .pla (t.setA junk) = .next u ∧ u.a = s.a ∧ u.sp = s.sp) ∧
      (∃ t u, exec .php s = .next t ∧ exec .plp (t.setP junk) = .next u ∧ u.p = s.p ||| 0x20#8 ∧ u.sp = s.sp))

/-- 44_stack_flags.md R286 to R292: each single-flag instruction writes its flag and changes nothing else. -/
def Obligations.SingleFlagInstructions : Prop :=
  ∀ (s : State) (i : Instr) (f : Flag) (b : Bool),
    (i, f, b) ∈ [(Instr.clc, Flag.C, false), (.sec, .C, true), (.cli, .I, false), (.sei, .I, true),
      (.cld, .D, false), (.sed, .D, true), (.clv, .V, false)] →
    ∃ p', exec i s = .next { s with p := p' } ∧ getFlag f p' = b ∧ FlagsKeptExcept [f] s.p p'

/-- 10_state.md R27: every whole-byte write of P writes `v | 0x20` (PLP, RTI, the abort of a handler, reset), and no
step clears the unused flag. -/
def Obligations.UnusedFlagAlwaysSet : Prop :=
  ∀ s : State,
    (∀ t, exec .plp s = .next t → t.p = (pull s).1 ||| 0x20#8) ∧
    (∀ t, exec .rti s = .next t → t.p = (pull s).1 ||| 0x20#8) ∧
    (s.ctx ≠ .normal → s.pending = true → (serveInterrupts s).p = (pull s).1 ||| 0x20#8) ∧
    (restart s).p = 0x20#8 ∧
    (getFlag .U s.p = true → ∀ t, step s = .next t → getFlag .U t.p = true)

/-! ## BRK, RTI, NOP, jumps and branches -/

/-- 45_control_system.md R310: BRK with interrupt-disable clear sets the break flag and raises the IRQ request, and
enters no handler; with it set, BRK changes nothing. Derived: rests on decision D7 of the spec
(92_eei_decisions.md). -/
def Obligations.BrkResult : Prop :=
  ∀ s : State,
    (s.flag .I = true → exec .brk s = .next s) ∧
    (s.flag .I = false → ∃ p', exec .brk s = .next { s with p := p', irqPending := true } ∧
      getFlag .B p' = true ∧ FlagsKeptExcept [.B] s.p p')

/-- 45_control_system.md R311: RTI in a handler pulls the flag byte, forces bit 5, returns to context Normal and
resumes at `ret_pc`; in context Normal it faults. Derived: rests on decisions D5 and D40 of the spec
(92_eei_decisions.md). -/
def Obligations.RtiResult : Prop :=
  ∀ s : State,
    (s.ctx ≠ .normal → exec .rti s = .next { s with
      sp := s.sp + 1
      p := s.stk.read (s.sp + 1).toNat ||| 0x20#8
      ctx := .normal
      pc := s.retPc }) ∧
    (s.ctx = .normal → exec .rti s = .fault .returnOutsideHandler)

/-- 45_control_system.md R312 to R314, 40_addressing_modes.md R170: NOP changes nothing; JMP changes PC alone; the
pointer of the indirect form is read low byte first, its high byte from the same page. Derived: rests on decision
D14 of the spec (92_eei_decisions.md). -/
def Obligations.NopAndJumps : Prop :=
  ∀ (s : State) (w : Addr),
    exec .nop s = .next s ∧
    exec (.jmpAbs w) s = .next { s with pc := w } ∧
    let second : Addr := BitVec.ofNat 16 (w.toNat / 256 * 256 + (w.toNat + 1) % 256)
    ∃ lo t hi u, cpuRead w s = (lo, t) ∧ cpuRead second t = (hi, u) ∧
      exec (.jmpInd w) s = .next { u with pc := BitVec.ofNat 16 (hi.toNat * 256 + lo.toNat) }

/-- 45_control_system.md R315, R316: JSR pushes the address of its third byte, high byte first, and jumps; RTS pulls
low then high and resumes one further; a JSR followed by an RTS resumes after the JSR with SP as before. Derived:
rests on decision D6 of the spec (92_eei_decisions.md). -/
def Obligations.CallAndReturn : Prop :=
  ∀ (s : State) (w : Addr),
    exec (.jsr w) s = .next { s with
      stk := (s.stk.write s.sp.toNat (highByte (s.pc - 1))).write (s.sp - 1).toNat (lowByte (s.pc - 1))
      sp := s.sp - 2
      pc := w } ∧
    exec .rts s = .next { s with
      sp := s.sp + 2
      pc := word16 (s.stk.read (s.sp + 1).toNat) (s.stk.read (s.sp + 2).toNat) + 1 } ∧
    (s.stk.wf → ∃ t u, exec (.jsr w) s = .next t ∧ exec .rts t = .next u ∧ u.pc = s.pc ∧ u.sp = s.sp)

/-- 45_control_system.md R317 to R325, 40_addressing_modes.md R173: each branch goes to the next instruction's
address plus its signed offset when its condition holds, and changes nothing else. Derived: rests on decision D45 of
the spec (92_eei_decisions.md). -/
def Obligations.BranchResults : Prop :=
  ∀ (s : State) (d : Byte) (i : Instr) (taken : Bool),
    (i, taken) ∈ [(Instr.bcc d, !s.flag .C), (.bcs d, s.flag .C), (.beq d, s.flag .Z), (.bne d, !s.flag .Z),
      (.bmi d, s.flag .N), (.bpl d, !s.flag .N), (.bvc d, !s.flag .V), (.bvs d, s.flag .V)] →
    exec i s = .next { s with
      pc := if taken then BitVec.ofInt 16 (s.pc.toNat + d.toInt) else s.pc }

/-! ## Frames -/

/-- 10_state.md R21 to R24, R30 to R36, R65: a register changes only under the instructions that write it; no
instruction changes `ret_pc`, the NMI request, program storage and its pristine copy, the host's controls, the
restart request or the parameters. -/
def Obligations.RegisterFrame : Prop :=
  ∀ (i : Instr) (s t : State), exec i s = .next t →
    (writesA i = false → t.a = s.a) ∧ (writesX i.mnemonic = false → t.x = s.x) ∧
    (writesY i.mnemonic = false → t.y = s.y) ∧ (writesSp i.mnemonic = false → t.sp = s.sp) ∧
    (writesPc i.mnemonic = false → t.pc = s.pc) ∧
    (i.mnemonic ≠ .RTI → t.ctx = s.ctx) ∧ (i.mnemonic ≠ .BRK → t.irqPending = s.irqPending) ∧
    t.retPc = s.retPc ∧ t.nmiPending = s.nmiPending ∧ t.prg = s.prg ∧ t.prgPristine = s.prgPristine ∧
    t.controls = s.controls ∧ t.restartRequested = s.restartRequested ∧ t.cfg = s.cfg

/-- 10_state.md R28: a flag changes only under the instructions its W column lists; every other bit of P is as
before. Derived: rests on decision D47 of the spec (92_eei_decisions.md). -/
def Obligations.FlagFrame : Prop :=
  ∀ (i : Instr) (s t : State) (f : Flag), exec i s = .next t → writesFlag f i.mnemonic = false →
    getFlag f t.p = getFlag f s.p

/-- An instruction or form that stores nothing (no store through its operand, no push) leaves every byte of memory
as it was: loads, compares, logic, register forms, pulls, jumps, branches, BRK and RTI. -/
def Obligations.NonStoringMemoryFrame : Prop :=
  ∀ (i : Instr) (s t : State), exec i s = .next t → storeAddress i s = none → pushes i.mnemonic = false →
    ∀ a : Addr, peek t a = peek s a

/-- STA, STX, STY and the memory forms of INC, DEC, ASL, LSR, ROL and ROR store to the one byte their effective
address designates; every byte at another mirrored address reads as before. -/
def Obligations.StoringMemoryFrame : Prop :=
  ∀ (i : Instr) (s t : State) (ea : Addr), MemoriesWf s → exec i s = .next t → storeAddress i s = some ea →
    ∀ a : Addr, mirrorCpu s.cfg a ≠ mirrorCpu s.cfg ea → peek t a = peek s a

/-- PHA, PHP and JSR store to the stack page at SP, JSR at the byte below it too, and nowhere else. -/
def Obligations.PushingMemoryFrame : Prop :=
  ∀ (i : Instr) (s t : State), MemoriesWf s → exec i s = .next t → pushes i.mnemonic = true →
    ∀ a : Addr, mirrorCpu s.cfg a ≠ 0x100 + s.sp.toNat →
      (i.mnemonic = .JSR → mirrorCpu s.cfg a ≠ 0x100 + (s.sp - 1).toNat) → peek t a = peek s a

/-- 47_ppu_timing.md R401, 70_reset_and_hazards.md R570, R571: no instruction moves the PPU's counters, draws, or
sets a sprite flag; and one without an operand in memory touches no device, logs no anomaly and reaches only the
stack page of memory. -/
def Obligations.DeviceFrame : Prop :=
  ∀ (i : Instr) (s t : State), exec i s = .next t →
    (t.ppu.cycle = s.ppu.cycle ∧ t.ppu.scanline = s.ppu.scanline ∧ t.ppu.frameCount = s.ppu.frameCount ∧
      t.ppu.spriteCount = s.ppu.spriteCount ∧ t.ppu.sprite0Hit = s.ppu.sprite0Hit ∧
      t.ppu.overflow = s.ppu.overflow ∧ t.ppu.work = s.ppu.work ∧ t.ppu.out = s.ppu.out) ∧
    (accessesNoOperand i = true →
      t.ppu = s.ppu ∧ t.strobe = s.strobe ∧ t.shiftIdx0 = s.shiftIdx0 ∧ t.shiftIdx1 = s.shiftIdx1 ∧
      t.anomalies = s.anomalies ∧ t.zp = s.zp ∧ t.ram = s.ram ∧ t.sram = s.sram ∧ t.fallback = s.fallback)

/-! ## Processor space -/

/-- 20_memory.md R87 (with the domain its remark gives): after a write to one of the four addresses of a work-RAM
cell, all four read the written byte, and reading them changes nothing. -/
def Obligations.WorkRamMirrors : Prop :=
  ∀ (s : State) (a k : Nat) (v : Byte), MemoriesWf s → a < 0x800 → k < 4 →
    ∀ j < 4,
      cpuRead (BitVec.ofNat 16 (a + j * 0x800)) (cpuWrite (BitVec.ofNat 16 (a + k * 0x800)) v s) =
        (v, cpuWrite (BitVec.ofNat 16 (a + k * 0x800)) v s)

/-- 20_memory.md R75: a write to a processor address at or above 0x8000 changes no state and logs no anomaly. -/
def Obligations.RomWritesDropped : Prop :=
  ∀ (s : State) (a : Addr) (v : Byte), s.cfg.regMirrorHi ≤ 0x8000 → 0x8000 ≤ a.toNat → cpuWrite a v s = s

/-- 20_memory.md R72, R77, R84, R85: with the register mirror of the spec, the mirrored address of every address;
0x2008, 0x3000 to 0x3FFF and 0x4018 to 0x5FFF are served by the fallback region, by address; so are, at every
mirror, the reads of the write-only registers and the writes of the status register; each access is logged and
changes nothing else. Derived: rests on decisions D16, D18 and D19 of the spec (92_eei_decisions.md). -/
def Obligations.FallbackRegion : Prop :=
  ∀ (s : State) (a : Addr) (v : Byte),
    let n := a.toNat
    let m := mirrorCpu s.cfg a
    let readsFallback : Prop :=
      cpuRead a s = (s.fallback.read m, { s with anomalies := s.anomalies ++ [⟨m, .read⟩] })
    let writesFallback : Prop :=
      cpuWrite a v s = { s with anomalies := s.anomalies ++ [⟨m, .write⟩], fallback := s.fallback.write m v }
    (s.cfg.regMirrorLo = 0x2008 → s.cfg.regMirrorHi = 0x3000 →
      (m = if n < 0x2000 then n % 0x800 else if 0x2008 < n ∧ n < 0x3000 then 0x2000 + n % 8 else n) ∧
      (n = 0x2008 ∨ 0x3000 ≤ n ∧ n ≤ 0x3FFF ∨ 0x4018 ≤ n ∧ n ≤ 0x5FFF →
        m = n ∧ readsFallback ∧ writesFallback)) ∧
    (m ∈ [0x2000, 0x2001, 0x2003, 0x2005, 0x2006, 0x4014] → readsFallback) ∧
    (m = 0x2002 → writesFallback)

/-- 20_memory.md R72, R74, R80: a read below 0x2000, of save RAM or of program storage answers the byte of its array
and has no side effect. Derived: rests on decision D15 of the spec (92_eei_decisions.md). -/
def Obligations.StaticReads : Prop :=
  ∀ (s : State) (a : Addr), s.cfg.regMirrorHi ≤ 0x6000 →
    let m := if a.toNat < 0x2000 then a.toNat % 0x800 else a.toNat
    (m < 0x100 → cpuRead a s = (s.zp.read m, s)) ∧
    (0x100 ≤ m → m < 0x200 → cpuRead a s = (s.stk.read (m - 0x100), s)) ∧
    (0x200 ≤ m → m < 0x800 → cpuRead a s = (s.ram.read (m - 0x200), s)) ∧
    (0x6000 ≤ m → m < 0x8000 → cpuRead a s = (s.sram.read (m - 0x6000), s)) ∧
    (0x8000 ≤ m → cpuRead a s = (s.prg.read (m - 0x8000), s))

/-! ## PPU space -/

/-- 20_memory.md R101: the four sprite-palette cells read back what is written to their background counterparts
and the other way round, and the palette repeats every 32 bytes over all of 0x3F00 to 0x3FFF, for reads and for
writes. -/
def Obligations.PaletteMirrors : Prop :=
  ∀ (u : Ppu) (mir : Mirroring) (v : Byte),
    (∀ k : Nat, u.pal.wf → k ∈ [0x0, 0x4, 0x8, 0xC] →
      ppuRead mir (ppuWrite mir u (BitVec.ofNat 16 (0x3F10 + k)) v) (BitVec.ofNat 16 (0x3F00 + k)) = v ∧
      ppuRead mir (ppuWrite mir u (BitVec.ofNat 16 (0x3F00 + k)) v) (BitVec.ofNat 16 (0x3F10 + k)) = v ∧
      ppuRead mir u (BitVec.ofNat 16 (0x3F10 + k)) = ppuRead mir u (BitVec.ofNat 16 (0x3F00 + k))) ∧
    ∀ n : Nat, n < 0x100 →
      ppuRead mir u (BitVec.ofNat 16 (0x3F00 + n)) = ppuRead mir u (BitVec.ofNat 16 (0x3F00 + n % 0x20)) ∧
      ppuWrite mir u (BitVec.ofNat 16 (0x3F00 + n)) v = ppuWrite mir u (BitVec.ofNat 16 (0x3F00 + n % 0x20)) v

/-- 20_memory.md R100 to R106, R108: the cell behind every PPU-space address, written out: the two pattern tables,
the two physical nametables under each mirroring mode, the image of 0x3000 to 0x3EFF, and the palette with its
redirect; a read answers that cell and a write stores to it and to nothing else, so a byte reads back at its own
address, at every address a multiple of 0x4000 away, and, for nametable addresses below 0x2F00, 0x1000 above; other
cells are unchanged. Derived: rests on decisions D21, D22 and D23 of the spec (92_eei_decisions.md). -/
def Obligations.PpuSpaceReadBack : Prop :=
  ∀ (u : Ppu) (mir : Mirroring) (a b : Addr) (v : Byte), (∀ c : PpuBacking, (u.memory c).wf) →
    let cell (x : Addr) : PpuBacking × Nat :=
      let m := x.toNat % 0x4000
      if m < 0x1000 then (.pattern0, m)
      else if m < 0x2000 then (.pattern1, m - 0x1000)
      else if m < 0x3F00 then
        let slot := m / 0x400 % 4
        let table :=
          match mir with
          | .horizontal => slot / 2
          | .vertical => slot % 2
        (if table = 0 then .nametable0 else .nametable1, m % 0x400)
      else (.pal, if m % 0x20 ∈ [0x10, 0x14, 0x18, 0x1C] then m % 0x20 - 0x10 else m % 0x20)
    let w := ppuWrite mir u a v
    ppuRead mir u a = (u.memory (cell a).1).read (cell a).2 ∧
    w = u.setMemory (cell a).1 ((u.memory (cell a).1).write (cell a).2 v) ∧
    (∀ k < 4, ppuRead mir w (a + BitVec.ofNat 16 (k * 0x4000)) = v) ∧
    (0x2000 ≤ a.toNat → a.toNat < 0x2F00 → ppuRead mir w (a + 0x1000#16) = v) ∧
    (cell b ≠ cell a → ppuRead mir w b = ppuRead mir u b)

/-! ## Device registers -/

/-- 46_device_registers.md R360, R361, R363: a write of PPU control, at any address that mirrors it, sets the fields
from the byte, resolves the master/slave select only when it is unset, and latches the nametable index only when the
background is shown or the device was not a slave; a write of PPU mask stores the byte; and once resolved, the
select is changed by no instruction and by no step that performs no restart. Derived: rests on decisions D30 and D31
of the spec (92_eei_decisions.md). -/
def Obligations.ControlAndMaskWrites : Prop :=
  ∀ (s : State) (a : Addr) (v : Byte),
    (mirrorCpu s.cfg a = 0x2000 → cpuWrite a v s = { s with ppu := { s.ppu with
      masterSlave :=
        match s.ppu.masterSlave with
        | .unset => if v.getLsbD 6 then .slave else .master
        | .master => .master
        | .slave => .slave
      ctrl :=
        { nametable :=
            if s.ppu.mask.getLsbD 3 = false ∧ s.ppu.masterSlave = .slave then s.ppu.ctrl.nametable
            else BitVec.ofNat 2 (v.toNat % 4)
          inc32 := v.getLsbD 2
          spriteTable := v.getLsbD 3
          bgTable := v.getLsbD 4
          sprite16 := v.getLsbD 5
          nmi := v.getLsbD 7 } } }) ∧
    (mirrorCpu s.cfg a = 0x2001 → cpuWrite a v s = { s with ppu := { s.ppu with mask := v } }) ∧
    (s.ppu.masterSlave ≠ .unset → ∀ t,
      (∀ i, exec i s = .next t → t.ppu.masterSlave = s.ppu.masterSlave) ∧
      (s.restartRequested = false → step s = .next t → t.ppu.masterSlave = s.ppu.masterSlave))

/-- 46_device_registers.md R364: a status read answers the three flags in bits 7 to 5, resets the write toggle,
clears the vertical-blank flag where the parameter says so, and changes nothing else. Derived: rests on decisions
D30 and D26 of the spec (92_eei_decisions.md). -/
def Obligations.StatusRead : Prop :=
  ∀ (s : State) (a : Addr), mirrorCpu s.cfg a = 0x2002 →
    ∃ r : Byte,
      cpuRead a s = (r, { s with ppu := { s.ppu with
        toggle := false
        vblank := !s.cfg.statusReadClearsVblank && s.ppu.vblank } }) ∧
      r.getLsbD 7 = s.ppu.vblank ∧ r.getLsbD 6 = s.ppu.sprite0Hit ∧ r.getLsbD 5 = s.ppu.overflow ∧
      r.toNat % 32 = 0

/-- 46_device_registers.md R366 to R368: the OAM address is set; an OAM data write stores at the cursor and moves it
on modulo 256; an OAM data read answers the stored byte and moves nothing. -/
def Obligations.OamPorts : Prop :=
  ∀ (s : State) (a : Addr) (v : Byte),
    (mirrorCpu s.cfg a = 0x2003 → cpuWrite a v s = { s with ppu := { s.ppu with oamAddr := v } }) ∧
    (mirrorCpu s.cfg a = 0x2004 →
      cpuWrite a v s = { s with ppu := { s.ppu with
        oam := s.ppu.oam.write s.ppu.oamAddr.toNat v
        oamAddr := BitVec.ofNat 8 (s.ppu.oamAddr.toNat + 1) } } ∧
      cpuRead a s = (s.ppu.oam.read s.ppu.oamAddr.toNat, s))

/-- 46_device_registers.md R370, R372, R373: scroll takes X then Y, address takes the high byte then the low byte,
one toggle alternates under both, and neither changes the other's registers. Derived: rests on decision D32 of the
spec (92_eei_decisions.md). -/
def Obligations.ScrollAndAddressWrites : Prop :=
  ∀ (s : State) (a : Addr) (v : Byte),
    (mirrorCpu s.cfg a = 0x2005 → cpuWrite a v s = { s with ppu := { s.ppu with
      scrollX := if s.ppu.toggle then s.ppu.scrollX else v
      scrollY := if s.ppu.toggle then v else s.ppu.scrollY
      toggle := !s.ppu.toggle } }) ∧
    (mirrorCpu s.cfg a = 0x2006 → cpuWrite a v s = { s with ppu := { s.ppu with
      vaddr :=
        if s.ppu.toggle then BitVec.ofNat 16 (s.ppu.vaddr.toNat / 256 * 256 + v.toNat)
        else BitVec.ofNat 16 (v.toNat * 256 + s.ppu.vaddr.toNat % 256)
      toggle := !s.ppu.toggle } })

/-- 46_device_registers.md R374 to R376: the data port writes and reads the PPU space at the address cursor, a
palette byte at once and any other byte through the read buffer, and moves the cursor by 1 or 32. Derived: rests on
decision D32 of the spec (92_eei_decisions.md). -/
def Obligations.DataPort : Prop :=
  ∀ (s : State) (a : Addr) (v : Byte), mirrorCpu s.cfg a = 0x2007 →
    let next : Addr := BitVec.ofNat 16 (s.ppu.vaddr.toNat + if s.ppu.ctrl.inc32 then 32 else 1)
    let cell := ppuRead s.cfg.mirroring s.ppu s.ppu.vaddr
    cpuWrite a v s = { s with ppu := { ppuWrite s.cfg.mirroring s.ppu s.ppu.vaddr v with vaddr := next } } ∧
    (0x3F00 ≤ s.ppu.vaddr.toNat % 0x4000 → cpuRead a s = (cell, { s with ppu := { s.ppu with vaddr := next } })) ∧
    (s.ppu.vaddr.toNat % 0x4000 < 0x3F00 →
      cpuRead a s = (s.ppu.readBuffer, { s with ppu := { s.ppu with vaddr := next, readBuffer := cell } }))

/-- 46_device_registers.md R380: OAM DMA of any page is 256 full processor reads in order, each with all it does
(device registers, log entries), whose bytes go to OAM from byte 0 on, and nothing else. So from a page of RAM, save
RAM or program storage it copies the page and changes nothing but OAM, the OAM cursor included; and from an unmapped
page it copies the fallback bytes and logs 256 reads, oldest first (log entry 16). Derived: rests on decisions D19,
D33 and D41 of the spec (92_eei_decisions.md). -/
def Obligations.OamDmaCopiesPage : Prop :=
  ∀ (s : State) (a : Addr) (page : Byte), mirrorCpu s.cfg a = 0x4014 →
    let source (i : Nat) : Addr := BitVec.ofNat 16 (page.toNat * 256 + i)
    cpuWrite a page s = (List.range 256).foldl (fun u i =>
      let r := cpuRead (source i) u
      { r.2 with ppu := { r.2.ppu with oam := r.2.ppu.oam.write i r.1 } }) s ∧
    (s.ppu.oam.wf → s.cfg.regMirrorHi ≤ 0x4000 →
      (page.toNat < 0x20 ∨ 0x60 ≤ page.toNat →
        ∃ oam : Memory, cpuWrite a page s = { s with ppu := { s.ppu with oam := oam } } ∧ oam.wf ∧
          ∀ i < 256, oam.read i = peek s (source i)) ∧
      (0x41 ≤ page.toNat ∧ page.toNat < 0x60 →
        ∃ oam : Memory, cpuWrite a page s = { s with
            anomalies := s.anomalies ++ (List.range 256).map fun i => ⟨page.toNat * 256 + i, .read⟩
            ppu := { s.ppu with oam := oam } } ∧ oam.wf ∧
          ∀ i < 256, oam.read i = s.fallback.read (page.toNat * 256 + i)))

/-- 46_device_registers.md R388 to R390, R392: the strobe write; a controller read in live mode, in sequential mode
and after the eighth button, for both ports; and the audio registers, which do nothing. Derived: rests on decisions
D36 and D20 of the spec (92_eei_decisions.md). -/
def Obligations.ControllersAndAudio : Prop :=
  ∀ (s : State) (a : Addr) (v : Byte),
    let bits (p : Pad) : List Bool := [p.a, p.b, p.select, p.start, p.up, p.down, p.left, p.right]
    let asByte (b : Bool) : Byte := if b then 1#8 else 0#8
    (mirrorCpu s.cfg a = 0x4016 →
      cpuWrite a v s = { s with strobe := v.getLsbD 0, shiftIdx0 := 0, shiftIdx1 := 0 } ∧
      cpuRead a s =
        (if s.strobe then (asByte s.controls.pad0.a, s)
        else if s.shiftIdx0 < 8 then
          (asByte ((bits s.controls.pad0).getD s.shiftIdx0 true), { s with shiftIdx0 := s.shiftIdx0 + 1 })
        else (1#8, s))) ∧
    (mirrorCpu s.cfg a = 0x4017 →
      cpuWrite a v s = s ∧
      cpuRead a s =
        (if s.strobe then (asByte s.controls.pad1.a, s)
        else if s.shiftIdx1 < 8 then
          (asByte ((bits s.controls.pad1).getD s.shiftIdx1 true), { s with shiftIdx1 := s.shiftIdx1 + 1 })
        else (1#8, s))) ∧
    (0x4000 ≤ mirrorCpu s.cfg a ∧ mirrorCpu s.cfg a ≤ 0x4013 ∨ mirrorCpu s.cfg a = 0x4015 →
      cpuWrite a v s = s ∧ cpuRead a s = (0#8, s))

/-! ## Interrupts, restart, pause -/

/-- 45_control_system.md R332: entry in context Normal: NMI wins over IRQ, both requests are cleared, the flag byte
is pushed as held, interrupt-disable is set, the context changes, `ret_pc` takes PC and PC the vector; nothing else
changes, and the translated program of layer 1 is asked to call the handler (that the call is an answer of
`portSync` is log entry 20). Without a request nothing happens. Derived: rests on decisions D4 and D5 of the spec
(92_eei_decisions.md). -/
def Obligations.InterruptEntry : Prop :=
  ∀ s : State, s.ctx = .normal → s.cfg.regMirrorHi ≤ 0x8000 →
    (s.nmiPending = false ∧ s.irqPending = false → serveInterrupts s = s) ∧
    (s.nmiPending = true ∨ s.irqPending = true →
      let off := if s.nmiPending then 0x7FFA else 0x7FFE
      ∃ p', let entered := { s with
          nmiPending := false
          irqPending := false
          stk := s.stk.write s.sp.toNat s.p
          sp := s.sp - 1
          p := p'
          ctx := if s.nmiPending then Context.inNmi else Context.inIrq }
        getFlag .I p' = true ∧ FlagsKeptExcept [.I] s.p p' ∧
        serveInterrupts s = { entered with
          retPc := s.pc
          pc := BitVec.ofNat 16 ((s.prg.read (off + 1)).toNat * 256 + (s.prg.read off).toNat) } ∧
        portSync 0 s = (entered, .callHandler (if s.nmiPending then .nmi else .irq)))

/-- 45_control_system.md R333, R334, 60_exceptions.md R526: a request in a handler aborts it: the flag byte is
pulled, the context returns to Normal, PC to `ret_pc`, and the request stays pending; no handler nests. Layer 1 is
told to leave the handler, and its return does the same but for PC (log entry 20). Derived: rests on decision D44 of
the spec (92_eei_decisions.md). -/
def Obligations.HandlerAbort : Prop :=
  ∀ s : State, s.ctx ≠ .normal →
    let left := { s with
      sp := s.sp + 1
      p := s.stk.read (s.sp + 1).toNat ||| 0x20#8
      ctx := Context.normal }
    (s.nmiPending = false ∧ s.irqPending = false → serveInterrupts s = s) ∧
    (s.nmiPending = true ∨ s.irqPending = true →
      serveInterrupts s = { left with pc := s.retPc } ∧ portSync 0 s = (s, .leave)) ∧
    (portHandlerReturn s).1 = left

/-- 45_control_system.md R330, R331, R336, R343, 47_ppu_timing.md R401, 60_exceptions.md R516, R546, 10_state.md
R61: a checkpoint of `n` processor cycles runs 3 * n PPU cycles, then the entry or the abort (stated in
InterruptEntry and HandlerAbort), then a requested restart, which wins over everything; layer 1 runs the same cycles
and is told to leave for a restart (log entry 20); a return from the reset entry point resets. A restart takes
effect while paused; a paused machine with no restart requested does not change (log entry 7). The host writes the
request to any value. Derived: rests on decisions D1 and D38 of the spec (92_eei_decisions.md). -/
def Obligations.RestartAndPause : Prop :=
  ∀ (s : State) (n : Nat),
    let t := ppuCycle^[3 * n] s
    let fresh := State.boot s.cfg s.prgPristine s.controls
    (s.restartRequested = false → sync n s = serveInterrupts t) ∧
    (s.restartRequested = true → sync n s = fresh) ∧
    portSync n s = portSync 0 t ∧
    (s.pending = false → portSync 0 s = (s, if s.restartRequested then .leave else .proceed)) ∧
    (portHandlerReturn s).2 = (if s.restartRequested then .leave else .proceed) ∧
    (s.restartRequested = true → portRestart s = fresh) ∧ portEntryReturn s = fresh ∧
    (s.controls.paused = true → s.restartRequested = true → step s = .next fresh) ∧
    (s.controls.paused = true → s.restartRequested = false → step s = .next s) ∧
    ∀ b : Bool, hostAct (.setRestartRequested b) s = { s with restartRequested := b }

/-! ## The PPU -/

/-- 47_ppu_timing.md R403, R406, R408: the vertical-blank flag is set by the PPU cycle that completes the line
VBLANK_START, which requests an NMI when the control bit is set at that instant; no other PPU cycle changes the
request, and none but it and the wrap changes the flag. Derived: rests on decisions D25 and D26 of the spec
(92_eei_decisions.md). -/
def Obligations.VblankAndNmi : Prop :=
  ∀ s : State,
    (ppuCycle s).nmiPending =
      (s.nmiPending ||
        (atLineEnd s && decide (s.ppu.scanline = s.cfg.vblankStart) && s.ppu.ctrl.nmi)) ∧
    (ppuCycle s).ppu.vblank =
      (if atLineEnd s then
        (if s.ppu.scanline + 1 = s.cfg.totalScanlines then false
        else s.ppu.vblank || decide (s.ppu.scanline = s.cfg.vblankStart))
      else s.ppu.vblank)

/-- 47_ppu_timing.md R405: completing the line VISIBLE_HEIGHT turns the working buffer, vertical order reversed,
into the output buffer and bumps the frame counter; no other PPU cycle changes either. Derived: rests on decision
D25 of the spec (92_eei_decisions.md). -/
def Obligations.FrameHandover : Prop :=
  ∀ s : State, Frame.shaped s.cfg s.ppu.work →
    (atLineEnd s = true ∧ s.ppu.scanline = s.cfg.visibleHeight →
      (ppuCycle s).ppu.frameCount = s.ppu.frameCount + 1 ∧
      ∀ y < s.cfg.visibleHeight, (ppuCycle s).ppu.out[s.cfg.visibleHeight - 1 - y]? = s.ppu.work[y]?) ∧
    (¬(atLineEnd s = true ∧ s.ppu.scanline = s.cfg.visibleHeight) →
      (ppuCycle s).ppu.frameCount = s.ppu.frameCount ∧ (ppuCycle s).ppu.out = s.ppu.out)

/-- 47_ppu_timing.md R401 to R406, R408 to R410, 46_device_registers.md R373: what every PPU cycle does, in every
field of the machine. Inside a line it only counts. The cycle that ends line `l` renders it if it is visible (what
RenderScanline leaves is stated in SpriteFlags and BackgroundScanline), hands the frame over after the last visible
line, starts vertical blank, moves to the next line and wraps, which clears the three status flags. Nothing else
changes: no register of the processor, no memory, no OAM, palette, pattern or nametable byte, no cursor, scroll,
toggle or read buffer; nor in any number of cycles. A frame as a list of rows is log entry 15. Derived: rests on
decisions D25, D26 and D27 of the spec (92_eei_decisions.md). -/
def Obligations.CountersAndWrap : Prop :=
  ∀ s : State,
    let l := s.ppu.scanline
    let ends := atLineEnd s
    let wraps := ends && decide (l + 1 = s.cfg.totalScanlines)
    let handsOver := ends && decide (l = s.cfg.visibleHeight)
    let blanks := ends && decide (l = s.cfg.vblankStart)
    let drawn := if ends = true ∧ l < s.cfg.visibleHeight then renderScanline l s else s
    ppuCycle s = { s with
      nmiPending := s.nmiPending || (blanks && s.ppu.ctrl.nmi)
      ppu := { s.ppu with
        cycle := if ends then 0 else s.ppu.cycle + 1
        scanline := if wraps then 0 else if ends then l + 1 else l
        work := drawn.ppu.work
        spriteCount := drawn.ppu.spriteCount
        sprite0Hit := !wraps && drawn.ppu.sprite0Hit
        overflow := !wraps && drawn.ppu.overflow
        vblank := !wraps && (s.ppu.vblank || blanks)
        out := if handsOver then s.ppu.work.reverse else s.ppu.out
        frameCount := if handsOver then s.ppu.frameCount + 1 else s.ppu.frameCount } } ∧
    ∀ k : Nat,
      let u := ppuCycle^[k] s
      u = { s with
        nmiPending := u.nmiPending
        ppu := { s.ppu with
          cycle := u.ppu.cycle
          scanline := u.ppu.scanline
          work := u.ppu.work
          spriteCount := u.ppu.spriteCount
          sprite0Hit := u.ppu.sprite0Hit
          overflow := u.ppu.overflow
          vblank := u.ppu.vblank
          out := u.ppu.out
          frameCount := u.ppu.frameCount } }

/-- 49_ppu_sprites_palette.md R460 to R464, R466 to R469: on a line rendered with sprites shown, the counter is the
number of OAM entries that intersect it, overflow is set when that exceeds 8, and sprite-zero hit is set exactly
when a nonzero pixel of entry 0, computed from its OAM bytes and the bit planes with flips and double height, lies
on the line left of WIDTH; with sprites not shown nothing of this changes. Derived: rests on decisions D27, D28 and
D34 of the spec (92_eei_decisions.md). -/
def Obligations.SpriteFlags : Prop :=
  ∀ (s : State) (y : Nat),
    let t := renderScanline y s
    let byte (k : Nat) : Nat := (s.ppu.oam.read k).toNat
    let flag (k b : Nat) : Bool := (s.ppu.oam.read (4 * k + 2)).getLsbD b
    let height := if s.ppu.ctrl.sprite16 then 16 else 8
    let onLine (k : Nat) : Bool := decide (byte (4 * k) + 1 ≤ y ∧ y < byte (4 * k) + 1 + height)
    let spritePix (k c : Nat) : Nat :=
      let r0 := y - (byte (4 * k) + 1)
      let r := if flag k 7 then height - 1 - r0 else r0
      let tile := byte (4 * k + 1)
      let table := if s.ppu.ctrl.sprite16 then decide (tile % 2 = 1) else s.ppu.ctrl.spriteTable
      let start := if s.ppu.ctrl.sprite16 then (tile / 2 * 2 + r / 8) * 16 + r % 8 else tile * 16 + r
      let plane (q : Nat) : Nat := ((if table then s.ppu.pattern1 else s.ppu.pattern0).read q).toNat
      let bit := if flag k 6 then c else 7 - c
      plane (start + 8) / 2 ^ bit % 2 * 2 + plane start / 2 ^ bit % 2
    (s.ppu.mask.getLsbD 4 = true →
      t.ppu.spriteCount = ((Finset.range 64).filter fun k => onLine k = true).card ∧
      t.ppu.overflow = (s.ppu.overflow || decide (8 < ((Finset.range 64).filter fun k => onLine k = true).card)) ∧
      (t.ppu.sprite0Hit = true ↔ s.ppu.sprite0Hit = true ∨
        (onLine 0 = true ∧ ∃ c < 8, byte 3 + c < s.cfg.width ∧ spritePix 0 c ≠ 0))) ∧
    (s.ppu.mask.getLsbD 4 = false →
      t.ppu.spriteCount = s.ppu.spriteCount ∧ t.ppu.overflow = s.ppu.overflow ∧
      t.ppu.sprite0Hit = s.ppu.sprite0Hit)

/-- 47_ppu_timing.md R404, 48_ppu_background.md R431 to R437, 49_ppu_sprites_palette.md R460 to R467, R470, R480,
R481: every pixel of a rendered line, whatever the two mask bits show: the lowest-numbered in-front sprite with a
nonzero pixel there, else the background where its pixel index is nonzero, else the lowest-numbered behind sprite,
else the universal background colour; each through the colour table by the low six bits of the palette byte,
averaged to grey when the mask bit or the host's override says so. The background pixel comes from the nametable,
the attribute byte and the two bit planes, a sprite's from OAM and its planes. Other lines of the working buffer are
unchanged. A colour beyond a short table is log entry 17. Derived: rests on decisions D23, D28, D29, D34 and D35 of
the spec (92_eei_decisions.md). -/
def Obligations.BackgroundScanline : Prop :=
  ∀ (s : State) (y x : Nat), Frame.shaped s.cfg s.ppu.work → y < s.cfg.visibleHeight → x < s.cfg.width →
    let yv := (y + s.ppu.scrollY.toNat) % 240
    let xv := (x + s.ppu.scrollX.toNat) % 256
    let slotY := (s.ppu.ctrl.nametable.toNat / 2 + (y + s.ppu.scrollY.toNat) / 240) % 2
    let slotX := (s.ppu.ctrl.nametable.toNat % 2 + (x + s.ppu.scrollX.toNat) / 256) % 2
    let base := 0x2000 + (slotY * 2 + slotX) * 0x400
    let row := yv / 8
    let col := xv / 8
    let rd (n : Nat) : Nat := (ppuRead s.cfg.mirroring s.ppu (BitVec.ofNat 16 n)).toNat
    let tile := rd (base + row * 32 + col)
    let attr := rd (base + 960 + row / 4 * 8 + col / 4)
    let sel := attr / 2 ^ (row % 4 / 2 * 4 + col % 4 / 2 * 2) % 4
    let plane (n : Nat) : Nat := ((if s.ppu.ctrl.bgTable then s.ppu.pattern1 else s.ppu.pattern0).read n).toNat
    let bit := 7 - xv % 8
    let pix := plane (tile * 16 + yv % 8 + 8) / 2 ^ bit % 2 * 2 + plane (tile * 16 + yv % 8) / 2 ^ bit % 2
    let byte (k : Nat) : Nat := (s.ppu.oam.read k).toNat
    let flag (k b : Nat) : Bool := (s.ppu.oam.read (4 * k + 2)).getLsbD b
    let height := if s.ppu.ctrl.sprite16 then 16 else 8
    let onLine (k : Nat) : Bool := decide (byte (4 * k) + 1 ≤ y ∧ y < byte (4 * k) + 1 + height)
    let spritePix (k c : Nat) : Nat :=
      let r0 := y - (byte (4 * k) + 1)
      let r := if flag k 7 then height - 1 - r0 else r0
      let tile := byte (4 * k + 1)
      let table := if s.ppu.ctrl.sprite16 then decide (tile % 2 = 1) else s.ppu.ctrl.spriteTable
      let start := if s.ppu.ctrl.sprite16 then (tile / 2 * 2 + r / 8) * 16 + r % 8 else tile * 16 + r
      let plane (q : Nat) : Nat := ((if table then s.ppu.pattern1 else s.ppu.pattern0).read q).toNat
      let bit := if flag k 6 then c else 7 - c
      plane (start + 8) / 2 ^ bit % 2 * 2 + plane start / 2 ^ bit % 2
    let drawn (behind : Bool) (k : Nat) : Bool :=
      s.ppu.mask.getLsbD 4 && onLine k && flag k 5 == behind &&
        decide (byte (4 * k + 3) ≤ x ∧ x < byte (4 * k + 3) + 8 ∧ spritePix k (x - byte (4 * k + 3)) ≠ 0)
    let top (behind : Bool) : Option Nat := (List.range 64).find? (drawn behind)
    let colourOf (cell : Nat) : Rgba :=
      let e := s.cfg.palette.getD ((s.ppu.pal.read cell).toNat % 64) Rgba.blank
      let m : Byte := BitVec.ofNat 8 ((e.r.toNat + e.g.toNat + e.b.toNat) / 3)
      if s.ppu.mask.getLsbD 0 || s.controls.forceGreyscale then ⟨m, m, m, e.a⟩ else e
    let spriteColour (k : Nat) : Rgba :=
      colourOf (0x10 + byte (4 * k + 2) % 4 * 4 + spritePix k (x - byte (4 * k + 3)))
    let t := renderScanline y s
    (∃ pixels, t.ppu.work[y]? = some pixels ∧
      pixels[x]? = some (
        match top false with
        | some k => spriteColour k
        | none =>
          if s.ppu.mask.getLsbD 3 = true ∧ pix ≠ 0 then colourOf (sel * 4 + pix)
          else
            match top true with
            | some k => spriteColour k
            | none => colourOf 0)) ∧
    ∀ z ≠ y, t.ppu.work[z]? = s.ppu.work[z]?

/-! ## Reset and whole-machine rules -/

/-- 10_state.md R60 to R64, 70_reset_and_hazards.md R550 to R555: what every reset leaves, in every field: the
registers, the interrupt state, the memories, the whole PPU with its pattern tables from CHR_IMAGE, the ports, the
log; that a second reset changes nothing but keeps the host's controls; and that a first reset is one whose program
storage is PRG_IMAGE and whose pause, speed and greyscale override have their power-on values. The zeros of
memories, PPU and ports are decision D37 of the spec, the strobe and shift indexes D36, the layout of the vector D4,
the padding of a short image D15; that the vector is read from program storage whatever the register mirror is, is
log entry 18 (DEDUCED). Derived: rests on decisions D4, D5, D15, D35, D36, D37 and D38 of the spec
(92_eei_decisions.md). -/
def Obligations.ResetValues : Prop :=
  (∀ s : State,
    let r := restart s
    let u := r.ppu
    (r.a = 0 ∧ r.x = 0 ∧ r.y = 0 ∧ r.sp = 0xFF#8 ∧ r.p = 0x20#8 ∧ r.ctx = .normal ∧
      r.nmiPending = false ∧ r.irqPending = false ∧ r.restartRequested = false ∧ r.retPc = 0 ∧
      r.pc = BitVec.ofNat 16 ((s.prgPristine.read 0x7FFD).toNat * 256 + (s.prgPristine.read 0x7FFC).toNat)) ∧
    (r.prg = s.prgPristine ∧ r.prgPristine = s.prgPristine ∧ r.controls = s.controls ∧ r.cfg = s.cfg ∧
      r.strobe = false ∧ r.shiftIdx0 = 0 ∧ r.shiftIdx1 = 0 ∧ r.anomalies = [] ∧
      ∀ n, r.zp.read n = 0 ∧ r.stk.read n = 0 ∧ r.ram.read n = 0 ∧ r.sram.read n = 0 ∧
        r.fallback.read n = 0) ∧
    (∀ n, u.nametable0.read n = 0 ∧ u.nametable1.read n = 0 ∧ u.oam.read n = 0 ∧ u.pal.read n = 0) ∧
    (∀ n < 0x1000, u.pattern0.read n = s.cfg.chrImage.getD n 0 ∧
      u.pattern1.read n = s.cfg.chrImage.getD (0x1000 + n) 0) ∧
    (u.ctrl = ⟨0, false, false, false, false, false⟩ ∧ u.mask = 0 ∧ u.masterSlave = .unset ∧
      u.vblank = false ∧ u.sprite0Hit = false ∧ u.overflow = false ∧ u.oamAddr = 0 ∧ u.vaddr = 0 ∧
      u.scrollX = 0 ∧ u.scrollY = 0 ∧ u.toggle = false ∧ u.readBuffer = 0 ∧
      u.cycle = 0 ∧ u.scanline = 0 ∧ u.frameCount = 0 ∧ u.spriteCount = 0) ∧
    (∀ f ∈ [u.work, u.out], Frame.shaped s.cfg f ∧ ∀ row ∈ f, ∀ px ∈ row, px = ⟨0, 0, 0, 0⟩) ∧
    restart r = r ∧ ∀ h : HostAction, restart (hostAct h s) = { r with controls := (hostAct h s).controls }) ∧
  (∀ c : Config,
    let r := State.firstReset c
    restart r = r ∧ r.cfg = c ∧ (∀ n < 0x8000, r.prg.read n = c.prgImage.getD n 0) ∧
    r.controls.paused = false ∧ r.controls.speedMultiplier = .x1 ∧ r.controls.forceGreyscale = false) ∧
  State.reset = State.firstReset defaultConfig

/-- 10_state.md R36, R65, 60_exceptions.md R546: the pristine copy, the parameters and the host's controls are
changed by no step, and program storage stays equal to its pristine copy. -/
def Obligations.PristineCopyNeverWritten : Prop :=
  ∀ s t : State, step s = .next t →
    t.prgPristine = s.prgPristine ∧ t.cfg = s.cfg ∧ t.controls = s.controls ∧
    (s.prg = s.prgPristine → t.prg = t.prgPristine)

/-- 45_control_system.md R343, 30_encoding.md R130: each instruction that is no control transfer does what the
operation request with its resolved operand form does in layer 1, and that request is one of layer 1. Derived: rests
on decision D1 of the spec (92_eei_decisions.md). -/
def Obligations.LayersAgree : Prop :=
  ∀ (i : Instr) (s : State), i.mnemonic.isControlTransfer = false →
    (Request.wellFormed ⟨i.mnemonic, formOf i s⟩ = true) ∧
    ∃ t, runRequest ⟨i.mnemonic, formOf i s⟩ s = some t ∧ exec i s = .next t

/-- The invariant holds right after reset, for every well-formed configuration and for the machine's own.
20_memory.md R111, 70_reset_and_hazards.md R560: configuration refuses one-screen and four-screen mirroring before
reset, and with one of the two supported modes answers the first reset (log entry 10). Derived: rests on decision
D43 of the spec (92_eei_decisions.md). -/
def Obligations.InvariantAtReset : Prop :=
  (∀ c : Config, c.WellFormed → Inv (State.firstReset c)) ∧ Inv State.reset ∧
  ∀ c : Config,
    powerOn .oneScreen c = .refused .unsupportedMirroring ∧
    powerOn .fourScreen c = .refused .unsupportedMirroring ∧
    powerOn .horizontal c = .next (State.firstReset { c with mirroring := .horizontal }) ∧
    powerOn .vertical c = .next (State.firstReset { c with mirroring := .vertical })

/-- Every step keeps the invariant: canonical memories inside their sizes, program storage equal to its pristine
copy, the unused flag set, the unreachable palette cells never written, shift indexes, PPU counters, the sprite
count and the frame buffers in their ranges. -/
def Obligations.StepKeepsInvariant : Prop :=
  ∀ s t : State, Inv s → step s = .next t → Inv t
end

