-- ==== Sys2Proof/Laws/State.lean ====
section
/-! SUPPORT. One lemma per field per named update of the state, each true by rfl, so that no later proof
unfolds a record update. -/

namespace Sys2Proof.Machine

@[simp] theorem State.setA_a (s : State) (v : Byte) : (s.setA v).a = v := rfl
@[simp] theorem State.setA_x (s : State) (v : Byte) : (s.setA v).x = s.x := rfl
@[simp] theorem State.setA_y (s : State) (v : Byte) : (s.setA v).y = s.y := rfl
@[simp] theorem State.setA_sp (s : State) (v : Byte) : (s.setA v).sp = s.sp := rfl
@[simp] theorem State.setA_p (s : State) (v : Byte) : (s.setA v).p = s.p := rfl
@[simp] theorem State.setA_pc (s : State) (v : Byte) : (s.setA v).pc = s.pc := rfl
@[simp] theorem State.setA_retPc (s : State) (v : Byte) : (s.setA v).retPc = s.retPc := rfl
@[simp] theorem State.setA_ctx (s : State) (v : Byte) : (s.setA v).ctx = s.ctx := rfl
@[simp] theorem State.setA_nmiPending (s : State) (v : Byte) : (s.setA v).nmiPending = s.nmiPending := rfl
@[simp] theorem State.setA_irqPending (s : State) (v : Byte) : (s.setA v).irqPending = s.irqPending := rfl
@[simp] theorem State.setA_zp (s : State) (v : Byte) : (s.setA v).zp = s.zp := rfl
@[simp] theorem State.setA_stk (s : State) (v : Byte) : (s.setA v).stk = s.stk := rfl
@[simp] theorem State.setA_ram (s : State) (v : Byte) : (s.setA v).ram = s.ram := rfl
@[simp] theorem State.setA_sram (s : State) (v : Byte) : (s.setA v).sram = s.sram := rfl
@[simp] theorem State.setA_prg (s : State) (v : Byte) : (s.setA v).prg = s.prg := rfl
@[simp] theorem State.setA_prgPristine (s : State) (v : Byte) : (s.setA v).prgPristine = s.prgPristine := rfl
@[simp] theorem State.setA_fallback (s : State) (v : Byte) : (s.setA v).fallback = s.fallback := rfl
@[simp] theorem State.setA_strobe (s : State) (v : Byte) : (s.setA v).strobe = s.strobe := rfl
@[simp] theorem State.setA_shiftIdx0 (s : State) (v : Byte) : (s.setA v).shiftIdx0 = s.shiftIdx0 := rfl
@[simp] theorem State.setA_shiftIdx1 (s : State) (v : Byte) : (s.setA v).shiftIdx1 = s.shiftIdx1 := rfl
@[simp] theorem State.setA_ppu (s : State) (v : Byte) : (s.setA v).ppu = s.ppu := rfl
@[simp] theorem State.setA_controls (s : State) (v : Byte) : (s.setA v).controls = s.controls := rfl
@[simp] theorem State.setA_restartRequested (s : State) (v : Byte) : (s.setA v).restartRequested = s.restartRequested := rfl
@[simp] theorem State.setA_anomalies (s : State) (v : Byte) : (s.setA v).anomalies = s.anomalies := rfl
@[simp] theorem State.setA_cfg (s : State) (v : Byte) : (s.setA v).cfg = s.cfg := rfl
@[simp] theorem State.setA_memory (s : State) (v : Byte) (b : Backing) : (s.setA v).memory b = s.memory b := by cases b <;> rfl

@[simp] theorem State.setX_a (s : State) (v : Byte) : (s.setX v).a = s.a := rfl
@[simp] theorem State.setX_x (s : State) (v : Byte) : (s.setX v).x = v := rfl
@[simp] theorem State.setX_y (s : State) (v : Byte) : (s.setX v).y = s.y := rfl
@[simp] theorem State.setX_sp (s : State) (v : Byte) : (s.setX v).sp = s.sp := rfl
@[simp] theorem State.setX_p (s : State) (v : Byte) : (s.setX v).p = s.p := rfl
@[simp] theorem State.setX_pc (s : State) (v : Byte) : (s.setX v).pc = s.pc := rfl
@[simp] theorem State.setX_retPc (s : State) (v : Byte) : (s.setX v).retPc = s.retPc := rfl
@[simp] theorem State.setX_ctx (s : State) (v : Byte) : (s.setX v).ctx = s.ctx := rfl
@[simp] theorem State.setX_nmiPending (s : State) (v : Byte) : (s.setX v).nmiPending = s.nmiPending := rfl
@[simp] theorem State.setX_irqPending (s : State) (v : Byte) : (s.setX v).irqPending = s.irqPending := rfl
@[simp] theorem State.setX_zp (s : State) (v : Byte) : (s.setX v).zp = s.zp := rfl
@[simp] theorem State.setX_stk (s : State) (v : Byte) : (s.setX v).stk = s.stk := rfl
@[simp] theorem State.setX_ram (s : State) (v : Byte) : (s.setX v).ram = s.ram := rfl
@[simp] theorem State.setX_sram (s : State) (v : Byte) : (s.setX v).sram = s.sram := rfl
@[simp] theorem State.setX_prg (s : State) (v : Byte) : (s.setX v).prg = s.prg := rfl
@[simp] theorem State.setX_prgPristine (s : State) (v : Byte) : (s.setX v).prgPristine = s.prgPristine := rfl
@[simp] theorem State.setX_fallback (s : State) (v : Byte) : (s.setX v).fallback = s.fallback := rfl
@[simp] theorem State.setX_strobe (s : State) (v : Byte) : (s.setX v).strobe = s.strobe := rfl
@[simp] theorem State.setX_shiftIdx0 (s : State) (v : Byte) : (s.setX v).shiftIdx0 = s.shiftIdx0 := rfl
@[simp] theorem State.setX_shiftIdx1 (s : State) (v : Byte) : (s.setX v).shiftIdx1 = s.shiftIdx1 := rfl
@[simp] theorem State.setX_ppu (s : State) (v : Byte) : (s.setX v).ppu = s.ppu := rfl
@[simp] theorem State.setX_controls (s : State) (v : Byte) : (s.setX v).controls = s.controls := rfl
@[simp] theorem State.setX_restartRequested (s : State) (v : Byte) : (s.setX v).restartRequested = s.restartRequested := rfl
@[simp] theorem State.setX_anomalies (s : State) (v : Byte) : (s.setX v).anomalies = s.anomalies := rfl
@[simp] theorem State.setX_cfg (s : State) (v : Byte) : (s.setX v).cfg = s.cfg := rfl
@[simp] theorem State.setX_memory (s : State) (v : Byte) (b : Backing) : (s.setX v).memory b = s.memory b := by cases b <;> rfl

@[simp] theorem State.setY_a (s : State) (v : Byte) : (s.setY v).a = s.a := rfl
@[simp] theorem State.setY_x (s : State) (v : Byte) : (s.setY v).x = s.x := rfl
@[simp] theorem State.setY_y (s : State) (v : Byte) : (s.setY v).y = v := rfl
@[simp] theorem State.setY_sp (s : State) (v : Byte) : (s.setY v).sp = s.sp := rfl
@[simp] theorem State.setY_p (s : State) (v : Byte) : (s.setY v).p = s.p := rfl
@[simp] theorem State.setY_pc (s : State) (v : Byte) : (s.setY v).pc = s.pc := rfl
@[simp] theorem State.setY_retPc (s : State) (v : Byte) : (s.setY v).retPc = s.retPc := rfl
@[simp] theorem State.setY_ctx (s : State) (v : Byte) : (s.setY v).ctx = s.ctx := rfl
@[simp] theorem State.setY_nmiPending (s : State) (v : Byte) : (s.setY v).nmiPending = s.nmiPending := rfl
@[simp] theorem State.setY_irqPending (s : State) (v : Byte) : (s.setY v).irqPending = s.irqPending := rfl
@[simp] theorem State.setY_zp (s : State) (v : Byte) : (s.setY v).zp = s.zp := rfl
@[simp] theorem State.setY_stk (s : State) (v : Byte) : (s.setY v).stk = s.stk := rfl
@[simp] theorem State.setY_ram (s : State) (v : Byte) : (s.setY v).ram = s.ram := rfl
@[simp] theorem State.setY_sram (s : State) (v : Byte) : (s.setY v).sram = s.sram := rfl
@[simp] theorem State.setY_prg (s : State) (v : Byte) : (s.setY v).prg = s.prg := rfl
@[simp] theorem State.setY_prgPristine (s : State) (v : Byte) : (s.setY v).prgPristine = s.prgPristine := rfl
@[simp] theorem State.setY_fallback (s : State) (v : Byte) : (s.setY v).fallback = s.fallback := rfl
@[simp] theorem State.setY_strobe (s : State) (v : Byte) : (s.setY v).strobe = s.strobe := rfl
@[simp] theorem State.setY_shiftIdx0 (s : State) (v : Byte) : (s.setY v).shiftIdx0 = s.shiftIdx0 := rfl
@[simp] theorem State.setY_shiftIdx1 (s : State) (v : Byte) : (s.setY v).shiftIdx1 = s.shiftIdx1 := rfl
@[simp] theorem State.setY_ppu (s : State) (v : Byte) : (s.setY v).ppu = s.ppu := rfl
@[simp] theorem State.setY_controls (s : State) (v : Byte) : (s.setY v).controls = s.controls := rfl
@[simp] theorem State.setY_restartRequested (s : State) (v : Byte) : (s.setY v).restartRequested = s.restartRequested := rfl
@[simp] theorem State.setY_anomalies (s : State) (v : Byte) : (s.setY v).anomalies = s.anomalies := rfl
@[simp] theorem State.setY_cfg (s : State) (v : Byte) : (s.setY v).cfg = s.cfg := rfl
@[simp] theorem State.setY_memory (s : State) (v : Byte) (b : Backing) : (s.setY v).memory b = s.memory b := by cases b <;> rfl

@[simp] theorem State.setSp_a (s : State) (v : Byte) : (s.setSp v).a = s.a := rfl
@[simp] theorem State.setSp_x (s : State) (v : Byte) : (s.setSp v).x = s.x := rfl
@[simp] theorem State.setSp_y (s : State) (v : Byte) : (s.setSp v).y = s.y := rfl
@[simp] theorem State.setSp_sp (s : State) (v : Byte) : (s.setSp v).sp = v := rfl
@[simp] theorem State.setSp_p (s : State) (v : Byte) : (s.setSp v).p = s.p := rfl
@[simp] theorem State.setSp_pc (s : State) (v : Byte) : (s.setSp v).pc = s.pc := rfl
@[simp] theorem State.setSp_retPc (s : State) (v : Byte) : (s.setSp v).retPc = s.retPc := rfl
@[simp] theorem State.setSp_ctx (s : State) (v : Byte) : (s.setSp v).ctx = s.ctx := rfl
@[simp] theorem State.setSp_nmiPending (s : State) (v : Byte) : (s.setSp v).nmiPending = s.nmiPending := rfl
@[simp] theorem State.setSp_irqPending (s : State) (v : Byte) : (s.setSp v).irqPending = s.irqPending := rfl
@[simp] theorem State.setSp_zp (s : State) (v : Byte) : (s.setSp v).zp = s.zp := rfl
@[simp] theorem State.setSp_stk (s : State) (v : Byte) : (s.setSp v).stk = s.stk := rfl
@[simp] theorem State.setSp_ram (s : State) (v : Byte) : (s.setSp v).ram = s.ram := rfl
@[simp] theorem State.setSp_sram (s : State) (v : Byte) : (s.setSp v).sram = s.sram := rfl
@[simp] theorem State.setSp_prg (s : State) (v : Byte) : (s.setSp v).prg = s.prg := rfl
@[simp] theorem State.setSp_prgPristine (s : State) (v : Byte) : (s.setSp v).prgPristine = s.prgPristine := rfl
@[simp] theorem State.setSp_fallback (s : State) (v : Byte) : (s.setSp v).fallback = s.fallback := rfl
@[simp] theorem State.setSp_strobe (s : State) (v : Byte) : (s.setSp v).strobe = s.strobe := rfl
@[simp] theorem State.setSp_shiftIdx0 (s : State) (v : Byte) : (s.setSp v).shiftIdx0 = s.shiftIdx0 := rfl
@[simp] theorem State.setSp_shiftIdx1 (s : State) (v : Byte) : (s.setSp v).shiftIdx1 = s.shiftIdx1 := rfl
@[simp] theorem State.setSp_ppu (s : State) (v : Byte) : (s.setSp v).ppu = s.ppu := rfl
@[simp] theorem State.setSp_controls (s : State) (v : Byte) : (s.setSp v).controls = s.controls := rfl
@[simp] theorem State.setSp_restartRequested (s : State) (v : Byte) : (s.setSp v).restartRequested = s.restartRequested := rfl
@[simp] theorem State.setSp_anomalies (s : State) (v : Byte) : (s.setSp v).anomalies = s.anomalies := rfl
@[simp] theorem State.setSp_cfg (s : State) (v : Byte) : (s.setSp v).cfg = s.cfg := rfl
@[simp] theorem State.setSp_memory (s : State) (v : Byte) (b : Backing) : (s.setSp v).memory b = s.memory b := by cases b <;> rfl

@[simp] theorem State.setP_a (s : State) (v : Byte) : (s.setP v).a = s.a := rfl
@[simp] theorem State.setP_x (s : State) (v : Byte) : (s.setP v).x = s.x := rfl
@[simp] theorem State.setP_y (s : State) (v : Byte) : (s.setP v).y = s.y := rfl
@[simp] theorem State.setP_sp (s : State) (v : Byte) : (s.setP v).sp = s.sp := rfl
@[simp] theorem State.setP_p (s : State) (v : Byte) : (s.setP v).p = v := rfl
@[simp] theorem State.setP_pc (s : State) (v : Byte) : (s.setP v).pc = s.pc := rfl
@[simp] theorem State.setP_retPc (s : State) (v : Byte) : (s.setP v).retPc = s.retPc := rfl
@[simp] theorem State.setP_ctx (s : State) (v : Byte) : (s.setP v).ctx = s.ctx := rfl
@[simp] theorem State.setP_nmiPending (s : State) (v : Byte) : (s.setP v).nmiPending = s.nmiPending := rfl
@[simp] theorem State.setP_irqPending (s : State) (v : Byte) : (s.setP v).irqPending = s.irqPending := rfl
@[simp] theorem State.setP_zp (s : State) (v : Byte) : (s.setP v).zp = s.zp := rfl
@[simp] theorem State.setP_stk (s : State) (v : Byte) : (s.setP v).stk = s.stk := rfl
@[simp] theorem State.setP_ram (s : State) (v : Byte) : (s.setP v).ram = s.ram := rfl
@[simp] theorem State.setP_sram (s : State) (v : Byte) : (s.setP v).sram = s.sram := rfl
@[simp] theorem State.setP_prg (s : State) (v : Byte) : (s.setP v).prg = s.prg := rfl
@[simp] theorem State.setP_prgPristine (s : State) (v : Byte) : (s.setP v).prgPristine = s.prgPristine := rfl
@[simp] theorem State.setP_fallback (s : State) (v : Byte) : (s.setP v).fallback = s.fallback := rfl
@[simp] theorem State.setP_strobe (s : State) (v : Byte) : (s.setP v).strobe = s.strobe := rfl
@[simp] theorem State.setP_shiftIdx0 (s : State) (v : Byte) : (s.setP v).shiftIdx0 = s.shiftIdx0 := rfl
@[simp] theorem State.setP_shiftIdx1 (s : State) (v : Byte) : (s.setP v).shiftIdx1 = s.shiftIdx1 := rfl
@[simp] theorem State.setP_ppu (s : State) (v : Byte) : (s.setP v).ppu = s.ppu := rfl
@[simp] theorem State.setP_controls (s : State) (v : Byte) : (s.setP v).controls = s.controls := rfl
@[simp] theorem State.setP_restartRequested (s : State) (v : Byte) : (s.setP v).restartRequested = s.restartRequested := rfl
@[simp] theorem State.setP_anomalies (s : State) (v : Byte) : (s.setP v).anomalies = s.anomalies := rfl
@[simp] theorem State.setP_cfg (s : State) (v : Byte) : (s.setP v).cfg = s.cfg := rfl
@[simp] theorem State.setP_memory (s : State) (v : Byte) (b : Backing) : (s.setP v).memory b = s.memory b := by cases b <;> rfl

@[simp] theorem State.setPc_a (s : State) (v : Addr) : (s.setPc v).a = s.a := rfl
@[simp] theorem State.setPc_x (s : State) (v : Addr) : (s.setPc v).x = s.x := rfl
@[simp] theorem State.setPc_y (s : State) (v : Addr) : (s.setPc v).y = s.y := rfl
@[simp] theorem State.setPc_sp (s : State) (v : Addr) : (s.setPc v).sp = s.sp := rfl
@[simp] theorem State.setPc_p (s : State) (v : Addr) : (s.setPc v).p = s.p := rfl
@[simp] theorem State.setPc_pc (s : State) (v : Addr) : (s.setPc v).pc = v := rfl
@[simp] theorem State.setPc_retPc (s : State) (v : Addr) : (s.setPc v).retPc = s.retPc := rfl
@[simp] theorem State.setPc_ctx (s : State) (v : Addr) : (s.setPc v).ctx = s.ctx := rfl
@[simp] theorem State.setPc_nmiPending (s : State) (v : Addr) : (s.setPc v).nmiPending = s.nmiPending := rfl
@[simp] theorem State.setPc_irqPending (s : State) (v : Addr) : (s.setPc v).irqPending = s.irqPending := rfl
@[simp] theorem State.setPc_zp (s : State) (v : Addr) : (s.setPc v).zp = s.zp := rfl
@[simp] theorem State.setPc_stk (s : State) (v : Addr) : (s.setPc v).stk = s.stk := rfl
@[simp] theorem State.setPc_ram (s : State) (v : Addr) : (s.setPc v).ram = s.ram := rfl
@[simp] theorem State.setPc_sram (s : State) (v : Addr) : (s.setPc v).sram = s.sram := rfl
@[simp] theorem State.setPc_prg (s : State) (v : Addr) : (s.setPc v).prg = s.prg := rfl
@[simp] theorem State.setPc_prgPristine (s : State) (v : Addr) : (s.setPc v).prgPristine = s.prgPristine := rfl
@[simp] theorem State.setPc_fallback (s : State) (v : Addr) : (s.setPc v).fallback = s.fallback := rfl
@[simp] theorem State.setPc_strobe (s : State) (v : Addr) : (s.setPc v).strobe = s.strobe := rfl
@[simp] theorem State.setPc_shiftIdx0 (s : State) (v : Addr) : (s.setPc v).shiftIdx0 = s.shiftIdx0 := rfl
@[simp] theorem State.setPc_shiftIdx1 (s : State) (v : Addr) : (s.setPc v).shiftIdx1 = s.shiftIdx1 := rfl
@[simp] theorem State.setPc_ppu (s : State) (v : Addr) : (s.setPc v).ppu = s.ppu := rfl
@[simp] theorem State.setPc_controls (s : State) (v : Addr) : (s.setPc v).controls = s.controls := rfl
@[simp] theorem State.setPc_restartRequested (s : State) (v : Addr) : (s.setPc v).restartRequested = s.restartRequested := rfl
@[simp] theorem State.setPc_anomalies (s : State) (v : Addr) : (s.setPc v).anomalies = s.anomalies := rfl
@[simp] theorem State.setPc_cfg (s : State) (v : Addr) : (s.setPc v).cfg = s.cfg := rfl
@[simp] theorem State.setPc_memory (s : State) (v : Addr) (b : Backing) : (s.setPc v).memory b = s.memory b := by cases b <;> rfl

@[simp] theorem State.setPpu_a (s : State) (v : Ppu) : (s.setPpu v).a = s.a := rfl
@[simp] theorem State.setPpu_x (s : State) (v : Ppu) : (s.setPpu v).x = s.x := rfl
@[simp] theorem State.setPpu_y (s : State) (v : Ppu) : (s.setPpu v).y = s.y := rfl
@[simp] theorem State.setPpu_sp (s : State) (v : Ppu) : (s.setPpu v).sp = s.sp := rfl
@[simp] theorem State.setPpu_p (s : State) (v : Ppu) : (s.setPpu v).p = s.p := rfl
@[simp] theorem State.setPpu_pc (s : State) (v : Ppu) : (s.setPpu v).pc = s.pc := rfl
@[simp] theorem State.setPpu_retPc (s : State) (v : Ppu) : (s.setPpu v).retPc = s.retPc := rfl
@[simp] theorem State.setPpu_ctx (s : State) (v : Ppu) : (s.setPpu v).ctx = s.ctx := rfl
@[simp] theorem State.setPpu_nmiPending (s : State) (v : Ppu) : (s.setPpu v).nmiPending = s.nmiPending := rfl
@[simp] theorem State.setPpu_irqPending (s : State) (v : Ppu) : (s.setPpu v).irqPending = s.irqPending := rfl
@[simp] theorem State.setPpu_zp (s : State) (v : Ppu) : (s.setPpu v).zp = s.zp := rfl
@[simp] theorem State.setPpu_stk (s : State) (v : Ppu) : (s.setPpu v).stk = s.stk := rfl
@[simp] theorem State.setPpu_ram (s : State) (v : Ppu) : (s.setPpu v).ram = s.ram := rfl
@[simp] theorem State.setPpu_sram (s : State) (v : Ppu) : (s.setPpu v).sram = s.sram := rfl
@[simp] theorem State.setPpu_prg (s : State) (v : Ppu) : (s.setPpu v).prg = s.prg := rfl
@[simp] theorem State.setPpu_prgPristine (s : State) (v : Ppu) : (s.setPpu v).prgPristine = s.prgPristine := rfl
@[simp] theorem State.setPpu_fallback (s : State) (v : Ppu) : (s.setPpu v).fallback = s.fallback := rfl
@[simp] theorem State.setPpu_strobe (s : State) (v : Ppu) : (s.setPpu v).strobe = s.strobe := rfl
@[simp] theorem State.setPpu_shiftIdx0 (s : State) (v : Ppu) : (s.setPpu v).shiftIdx0 = s.shiftIdx0 := rfl
@[simp] theorem State.setPpu_shiftIdx1 (s : State) (v : Ppu) : (s.setPpu v).shiftIdx1 = s.shiftIdx1 := rfl
@[simp] theorem State.setPpu_ppu (s : State) (v : Ppu) : (s.setPpu v).ppu = v := rfl
@[simp] theorem State.setPpu_controls (s : State) (v : Ppu) : (s.setPpu v).controls = s.controls := rfl
@[simp] theorem State.setPpu_restartRequested (s : State) (v : Ppu) : (s.setPpu v).restartRequested = s.restartRequested := rfl
@[simp] theorem State.setPpu_anomalies (s : State) (v : Ppu) : (s.setPpu v).anomalies = s.anomalies := rfl
@[simp] theorem State.setPpu_cfg (s : State) (v : Ppu) : (s.setPpu v).cfg = s.cfg := rfl
@[simp] theorem State.setPpu_memory (s : State) (v : Ppu) (b : Backing) : (s.setPpu v).memory b = s.memory b := by cases b <;> rfl

@[simp] theorem logAnomaly_a (m : Nat) (k : AccessKind) (s : State) : (logAnomaly m k s).a = s.a := rfl
@[simp] theorem logAnomaly_x (m : Nat) (k : AccessKind) (s : State) : (logAnomaly m k s).x = s.x := rfl
@[simp] theorem logAnomaly_y (m : Nat) (k : AccessKind) (s : State) : (logAnomaly m k s).y = s.y := rfl
@[simp] theorem logAnomaly_sp (m : Nat) (k : AccessKind) (s : State) : (logAnomaly m k s).sp = s.sp := rfl
@[simp] theorem logAnomaly_p (m : Nat) (k : AccessKind) (s : State) : (logAnomaly m k s).p = s.p := rfl
@[simp] theorem logAnomaly_pc (m : Nat) (k : AccessKind) (s : State) : (logAnomaly m k s).pc = s.pc := rfl
@[simp] theorem logAnomaly_retPc (m : Nat) (k : AccessKind) (s : State) : (logAnomaly m k s).retPc = s.retPc := rfl
@[simp] theorem logAnomaly_ctx (m : Nat) (k : AccessKind) (s : State) : (logAnomaly m k s).ctx = s.ctx := rfl
@[simp] theorem logAnomaly_nmiPending (m : Nat) (k : AccessKind) (s : State) : (logAnomaly m k s).nmiPending = s.nmiPending := rfl
@[simp] theorem logAnomaly_irqPending (m : Nat) (k : AccessKind) (s : State) : (logAnomaly m k s).irqPending = s.irqPending := rfl
@[simp] theorem logAnomaly_zp (m : Nat) (k : AccessKind) (s : State) : (logAnomaly m k s).zp = s.zp := rfl
@[simp] theorem logAnomaly_stk (m : Nat) (k : AccessKind) (s : State) : (logAnomaly m k s).stk = s.stk := rfl
@[simp] theorem logAnomaly_ram (m : Nat) (k : AccessKind) (s : State) : (logAnomaly m k s).ram = s.ram := rfl
@[simp] theorem logAnomaly_sram (m : Nat) (k : AccessKind) (s : State) : (logAnomaly m k s).sram = s.sram := rfl
@[simp] theorem logAnomaly_prg (m : Nat) (k : AccessKind) (s : State) : (logAnomaly m k s).prg = s.prg := rfl
@[simp] theorem logAnomaly_prgPristine (m : Nat) (k : AccessKind) (s : State) : (logAnomaly m k s).prgPristine = s.prgPristine := rfl
@[simp] theorem logAnomaly_fallback (m : Nat) (k : AccessKind) (s : State) : (logAnomaly m k s).fallback = s.fallback := rfl
@[simp] theorem logAnomaly_strobe (m : Nat) (k : AccessKind) (s : State) : (logAnomaly m k s).strobe = s.strobe := rfl
@[simp] theorem logAnomaly_shiftIdx0 (m : Nat) (k : AccessKind) (s : State) : (logAnomaly m k s).shiftIdx0 = s.shiftIdx0 := rfl
@[simp] theorem logAnomaly_shiftIdx1 (m : Nat) (k : AccessKind) (s : State) : (logAnomaly m k s).shiftIdx1 = s.shiftIdx1 := rfl
@[simp] theorem logAnomaly_ppu (m : Nat) (k : AccessKind) (s : State) : (logAnomaly m k s).ppu = s.ppu := rfl
@[simp] theorem logAnomaly_controls (m : Nat) (k : AccessKind) (s : State) : (logAnomaly m k s).controls = s.controls := rfl
@[simp] theorem logAnomaly_restartRequested (m : Nat) (k : AccessKind) (s : State) : (logAnomaly m k s).restartRequested = s.restartRequested := rfl
@[simp] theorem logAnomaly_anomalies (m : Nat) (k : AccessKind) (s : State) : (logAnomaly m k s).anomalies = s.anomalies ++ [⟨m, k⟩] := rfl
@[simp] theorem logAnomaly_cfg (m : Nat) (k : AccessKind) (s : State) : (logAnomaly m k s).cfg = s.cfg := rfl
@[simp] theorem logAnomaly_memory (m : Nat) (k : AccessKind) (s : State) (b : Backing) : (logAnomaly m k s).memory b = s.memory b := by cases b <;> rfl

@[simp] theorem State.setMemory_a (s : State) (b : Backing) (m : Memory) : (s.setMemory b m).a = s.a := by cases b <;> rfl
@[simp] theorem State.setMemory_x (s : State) (b : Backing) (m : Memory) : (s.setMemory b m).x = s.x := by cases b <;> rfl
@[simp] theorem State.setMemory_y (s : State) (b : Backing) (m : Memory) : (s.setMemory b m).y = s.y := by cases b <;> rfl
@[simp] theorem State.setMemory_sp (s : State) (b : Backing) (m : Memory) : (s.setMemory b m).sp = s.sp := by cases b <;> rfl
@[simp] theorem State.setMemory_p (s : State) (b : Backing) (m : Memory) : (s.setMemory b m).p = s.p := by cases b <;> rfl
@[simp] theorem State.setMemory_pc (s : State) (b : Backing) (m : Memory) : (s.setMemory b m).pc = s.pc := by cases b <;> rfl
@[simp] theorem State.setMemory_retPc (s : State) (b : Backing) (m : Memory) : (s.setMemory b m).retPc = s.retPc := by cases b <;> rfl
@[simp] theorem State.setMemory_ctx (s : State) (b : Backing) (m : Memory) : (s.setMemory b m).ctx = s.ctx := by cases b <;> rfl
@[simp] theorem State.setMemory_nmiPending (s : State) (b : Backing) (m : Memory) : (s.setMemory b m).nmiPending = s.nmiPending := by cases b <;> rfl
@[simp] theorem State.setMemory_irqPending (s : State) (b : Backing) (m : Memory) : (s.setMemory b m).irqPending = s.irqPending := by cases b <;> rfl
@[simp] theorem State.setMemory_prgPristine (s : State) (b : Backing) (m : Memory) : (s.setMemory b m).prgPristine = s.prgPristine := by cases b <;> rfl
@[simp] theorem State.setMemory_strobe (s : State) (b : Backing) (m : Memory) : (s.setMemory b m).strobe = s.strobe := by cases b <;> rfl
@[simp] theorem State.setMemory_shiftIdx0 (s : State) (b : Backing) (m : Memory) : (s.setMemory b m).shiftIdx0 = s.shiftIdx0 := by cases b <;> rfl
@[simp] theorem State.setMemory_shiftIdx1 (s : State) (b : Backing) (m : Memory) : (s.setMemory b m).shiftIdx1 = s.shiftIdx1 := by cases b <;> rfl
@[simp] theorem State.setMemory_ppu (s : State) (b : Backing) (m : Memory) : (s.setMemory b m).ppu = s.ppu := by cases b <;> rfl
@[simp] theorem State.setMemory_controls (s : State) (b : Backing) (m : Memory) : (s.setMemory b m).controls = s.controls := by cases b <;> rfl
@[simp] theorem State.setMemory_restartRequested (s : State) (b : Backing) (m : Memory) : (s.setMemory b m).restartRequested = s.restartRequested := by cases b <;> rfl
@[simp] theorem State.setMemory_anomalies (s : State) (b : Backing) (m : Memory) : (s.setMemory b m).anomalies = s.anomalies := by cases b <;> rfl
@[simp] theorem State.setMemory_cfg (s : State) (b : Backing) (m : Memory) : (s.setMemory b m).cfg = s.cfg := by cases b <;> rfl

/-- A replaced array reads as the new one, and every other array as before. -/
@[simp] theorem State.memory_setMemory (s : State) (b c : Backing) (m : Memory) :
    (s.setMemory b m).memory c = if c = b then m else s.memory c := by
  cases b <;> cases c <;> rfl

@[simp] theorem storeCell_a (s : State) (m : Nat) (v : Byte) : (storeCell s m v).a = s.a := by simp [storeCell]
@[simp] theorem storeCell_x (s : State) (m : Nat) (v : Byte) : (storeCell s m v).x = s.x := by simp [storeCell]
@[simp] theorem storeCell_y (s : State) (m : Nat) (v : Byte) : (storeCell s m v).y = s.y := by simp [storeCell]
@[simp] theorem storeCell_sp (s : State) (m : Nat) (v : Byte) : (storeCell s m v).sp = s.sp := by simp [storeCell]
@[simp] theorem storeCell_p (s : State) (m : Nat) (v : Byte) : (storeCell s m v).p = s.p := by simp [storeCell]
@[simp] theorem storeCell_pc (s : State) (m : Nat) (v : Byte) : (storeCell s m v).pc = s.pc := by simp [storeCell]
@[simp] theorem storeCell_retPc (s : State) (m : Nat) (v : Byte) : (storeCell s m v).retPc = s.retPc := by simp [storeCell]
@[simp] theorem storeCell_ctx (s : State) (m : Nat) (v : Byte) : (storeCell s m v).ctx = s.ctx := by simp [storeCell]
@[simp] theorem storeCell_nmiPending (s : State) (m : Nat) (v : Byte) : (storeCell s m v).nmiPending = s.nmiPending := by simp [storeCell]
@[simp] theorem storeCell_irqPending (s : State) (m : Nat) (v : Byte) : (storeCell s m v).irqPending = s.irqPending := by simp [storeCell]
@[simp] theorem storeCell_prgPristine (s : State) (m : Nat) (v : Byte) : (storeCell s m v).prgPristine = s.prgPristine := by simp [storeCell]
@[simp] theorem storeCell_strobe (s : State) (m : Nat) (v : Byte) : (storeCell s m v).strobe = s.strobe := by simp [storeCell]
@[simp] theorem storeCell_shiftIdx0 (s : State) (m : Nat) (v : Byte) : (storeCell s m v).shiftIdx0 = s.shiftIdx0 := by simp [storeCell]
@[simp] theorem storeCell_shiftIdx1 (s : State) (m : Nat) (v : Byte) : (storeCell s m v).shiftIdx1 = s.shiftIdx1 := by simp [storeCell]
@[simp] theorem storeCell_ppu (s : State) (m : Nat) (v : Byte) : (storeCell s m v).ppu = s.ppu := by simp [storeCell]
@[simp] theorem storeCell_controls (s : State) (m : Nat) (v : Byte) : (storeCell s m v).controls = s.controls := by simp [storeCell]
@[simp] theorem storeCell_restartRequested (s : State) (m : Nat) (v : Byte) : (storeCell s m v).restartRequested = s.restartRequested := by simp [storeCell]
@[simp] theorem storeCell_anomalies (s : State) (m : Nat) (v : Byte) : (storeCell s m v).anomalies = s.anomalies := by simp [storeCell]
@[simp] theorem storeCell_cfg (s : State) (m : Nat) (v : Byte) : (storeCell s m v).cfg = s.cfg := by simp [storeCell]

/-- Reading one byte of memory looks only at the arrays and the configuration. -/
theorem peek_congr (s t : State) (hm : ∀ b, t.memory b = s.memory b) (hc : t.cfg = s.cfg) (a : Addr) :
    peek t a = peek s a := by
  simp [peek, hm, hc]

@[simp] theorem peek_setA (s : State) (v : Byte) (a : Addr) : peek (s.setA v) a = peek s a := by simp [peek]
@[simp] theorem peek_setX (s : State) (v : Byte) (a : Addr) : peek (s.setX v) a = peek s a := by simp [peek]
@[simp] theorem peek_setY (s : State) (v : Byte) (a : Addr) : peek (s.setY v) a = peek s a := by simp [peek]
@[simp] theorem peek_setSp (s : State) (v : Byte) (a : Addr) : peek (s.setSp v) a = peek s a := by simp [peek]
@[simp] theorem peek_setP (s : State) (v : Byte) (a : Addr) : peek (s.setP v) a = peek s a := by simp [peek]
@[simp] theorem peek_setPc (s : State) (v : Addr) (a : Addr) : peek (s.setPc v) a = peek s a := by simp [peek]
@[simp] theorem peek_setPpu (s : State) (v : Ppu) (a : Addr) : peek (s.setPpu v) a = peek s a := by simp [peek]

/-- A replaced PPU memory reads as the new one, and every other one as before. -/
@[simp] theorem PpuMemory.memory_setMemory (u : Ppu) (b c : PpuBacking) (m : Memory) :
    (u.setMemory b m).memory c = if c = b then m else u.memory c := by
  cases b <;> cases c <;> rfl

end Sys2Proof.Machine
end

