-- ==== Sys2Proof/Laws/Flags.lean ====
section
/-! SUPPORT. Reading a flag after writing a flag, and the flag computations read flag by flag. -/

namespace Sys2Proof.Machine

/-- A written flag reads as written and every other flag as before. -/
@[simp] theorem getFlag_setFlag (f g : Flag) (b : Bool) (p : Byte) :
    getFlag g (setFlag f b p) = if g = f then b else getFlag g p := by
  cases b <;> cases f <;> cases g <;> simp [getFlag, setFlag, Flag.bit]

/-- The flags after SetZN. -/
@[simp] theorem getFlag_setZN (g : Flag) (v p : Byte) :
    getFlag g (setZN v p) =
      if g = .N then v.getLsbD 7 else if g = .Z then v == 0 else getFlag g p := by
  simp [setZN]

/-- A whole-byte write takes every flag from the byte but the unused one, which is set (R293). -/
@[simp] theorem getFlag_wholeByte (g : Flag) (v : Byte) :
    getFlag g (wholeByte v) = if g = .U then true else getFlag g v := by
  cases g <;> simp [getFlag, wholeByte, Flag.bit]

/-- The flags of an add or subtract. -/
theorem getFlag_arithFlags (g : Flag) (r : Alu) (p : Byte) :
    getFlag g (arithFlags r p) =
      if g = .N then r.result.getLsbD 7 else if g = .Z then r.result == 0
      else if g = .V then r.overflow else if g = .C then r.carry else getFlag g p := by
  simp [arithFlags]

/-- The flags of a compare. -/
theorem getFlag_compareFlags (g : Flag) (reg m p : Byte) :
    getFlag g (compareFlags reg m p) =
      if g = .N then (reg - m).getLsbD 7 else if g = .Z then reg - m == 0
      else if g = .C then decide (reg.toNat ≥ m.toNat) else getFlag g p := by
  simp [compareFlags]

/-- The flags of BIT. -/
theorem getFlag_bitFlags (g : Flag) (a m p : Byte) :
    getFlag g (bitFlags a m p) =
      if g = .N then m.getLsbD 7 else if g = .Z then (m &&& a) == 0
      else if g = .V then m.getLsbD 6 else getFlag g p := by
  simp [bitFlags]

/-- The flags of a shift or rotate. -/
theorem getFlag_shiftFlags (g : Flag) (r : Shifted) (p : Byte) :
    getFlag g (shiftFlags r p) =
      if g = .N then r.result.getLsbD 7 else if g = .Z then r.result == 0
      else if g = .C then r.carry else getFlag g p := by
  simp [shiftFlags]

end Sys2Proof.Machine
end

