-- ==== Sys2Proof/Laws/Exec.lean ====
section
/-! SUPPORT. What `exec` answers for each instruction, in terms of the shared operation its meaning is written
over, so that no later proof unfolds a meaning. -/

namespace Sys2Proof.Machine

@[simp] theorem exec_adcImm (v : Byte) (s : State) :
    exec (.adcImm v) s = .next (adc (.imm v) s) := rfl
@[simp] theorem exec_adcZp (z : Byte) (s : State) :
    exec (.adcZp z) s = .next (adc (.mem (eaZp z s)) s) := rfl
@[simp] theorem exec_adcZpx (z : Byte) (s : State) :
    exec (.adcZpx z) s = .next (adc (.mem (eaZpx z s)) s) := rfl
@[simp] theorem exec_adcAbs (w : Addr) (s : State) :
    exec (.adcAbs w) s = .next (adc (.mem (eaAbs w s)) s) := rfl
@[simp] theorem exec_adcAbx (w : Addr) (s : State) :
    exec (.adcAbx w) s = .next (adc (.mem (eaAbx w s)) s) := rfl
@[simp] theorem exec_adcAby (w : Addr) (s : State) :
    exec (.adcAby w) s = .next (adc (.mem (eaAby w s)) s) := rfl
@[simp] theorem exec_adcIzx (z : Byte) (s : State) :
    exec (.adcIzx z) s = .next (adc (.mem (eaIzx z s)) s) := rfl
@[simp] theorem exec_adcIzy (z : Byte) (s : State) :
    exec (.adcIzy z) s = .next (adc (.mem (eaIzy z s)) s) := rfl
@[simp] theorem exec_andImm (v : Byte) (s : State) :
    exec (.andImm v) s = .next (andOp (.imm v) s) := rfl
@[simp] theorem exec_andZp (z : Byte) (s : State) :
    exec (.andZp z) s = .next (andOp (.mem (eaZp z s)) s) := rfl
@[simp] theorem exec_andZpx (z : Byte) (s : State) :
    exec (.andZpx z) s = .next (andOp (.mem (eaZpx z s)) s) := rfl
@[simp] theorem exec_andAbs (w : Addr) (s : State) :
    exec (.andAbs w) s = .next (andOp (.mem (eaAbs w s)) s) := rfl
@[simp] theorem exec_andAbx (w : Addr) (s : State) :
    exec (.andAbx w) s = .next (andOp (.mem (eaAbx w s)) s) := rfl
@[simp] theorem exec_andAby (w : Addr) (s : State) :
    exec (.andAby w) s = .next (andOp (.mem (eaAby w s)) s) := rfl
@[simp] theorem exec_andIzx (z : Byte) (s : State) :
    exec (.andIzx z) s = .next (andOp (.mem (eaIzx z s)) s) := rfl
@[simp] theorem exec_andIzy (z : Byte) (s : State) :
    exec (.andIzy z) s = .next (andOp (.mem (eaIzy z s)) s) := rfl
@[simp] theorem exec_aslAcc (s : State) :
    exec .aslAcc s = .next (asl .acc s) := rfl
@[simp] theorem exec_aslZp (z : Byte) (s : State) :
    exec (.aslZp z) s = .next (asl (.mem (eaZp z s)) s) := rfl
@[simp] theorem exec_aslZpx (z : Byte) (s : State) :
    exec (.aslZpx z) s = .next (asl (.mem (eaZpx z s)) s) := rfl
@[simp] theorem exec_aslAbs (w : Addr) (s : State) :
    exec (.aslAbs w) s = .next (asl (.mem (eaAbs w s)) s) := rfl
@[simp] theorem exec_aslAbx (w : Addr) (s : State) :
    exec (.aslAbx w) s = .next (asl (.mem (eaAbx w s)) s) := rfl
@[simp] theorem exec_bcc (d : Byte) (s : State) :
    exec (.bcc d) s = .next (branch (!s.flag .C) d s) := rfl
@[simp] theorem exec_bcs (d : Byte) (s : State) :
    exec (.bcs d) s = .next (branch (s.flag .C) d s) := rfl
@[simp] theorem exec_beq (d : Byte) (s : State) :
    exec (.beq d) s = .next (branch (s.flag .Z) d s) := rfl
@[simp] theorem exec_bitZp (z : Byte) (s : State) :
    exec (.bitZp z) s = .next (bitTest (eaZp z s) s) := rfl
@[simp] theorem exec_bitAbs (w : Addr) (s : State) :
    exec (.bitAbs w) s = .next (bitTest (eaAbs w s) s) := rfl
@[simp] theorem exec_bmi (d : Byte) (s : State) :
    exec (.bmi d) s = .next (branch (s.flag .N) d s) := rfl
@[simp] theorem exec_bne (d : Byte) (s : State) :
    exec (.bne d) s = .next (branch (!s.flag .Z) d s) := rfl
@[simp] theorem exec_bpl (d : Byte) (s : State) :
    exec (.bpl d) s = .next (branch (!s.flag .N) d s) := rfl
@[simp] theorem exec_brk (s : State) :
    exec .brk s = .next (breakRequest s) := rfl
@[simp] theorem exec_bvc (d : Byte) (s : State) :
    exec (.bvc d) s = .next (branch (!s.flag .V) d s) := rfl
@[simp] theorem exec_bvs (d : Byte) (s : State) :
    exec (.bvs d) s = .next (branch (s.flag .V) d s) := rfl
@[simp] theorem exec_clc (s : State) :
    exec .clc s = .next (writeFlag .C false s) := rfl
@[simp] theorem exec_cld (s : State) :
    exec .cld s = .next (writeFlag .D false s) := rfl
@[simp] theorem exec_cli (s : State) :
    exec .cli s = .next (writeFlag .I false s) := rfl
@[simp] theorem exec_clv (s : State) :
    exec .clv s = .next (writeFlag .V false s) := rfl
@[simp] theorem exec_cmpImm (v : Byte) (s : State) :
    exec (.cmpImm v) s = .next (compareA (.imm v) s) := rfl
@[simp] theorem exec_cmpZp (z : Byte) (s : State) :
    exec (.cmpZp z) s = .next (compareA (.mem (eaZp z s)) s) := rfl
@[simp] theorem exec_cmpZpx (z : Byte) (s : State) :
    exec (.cmpZpx z) s = .next (compareA (.mem (eaZpx z s)) s) := rfl
@[simp] theorem exec_cmpAbs (w : Addr) (s : State) :
    exec (.cmpAbs w) s = .next (compareA (.mem (eaAbs w s)) s) := rfl
@[simp] theorem exec_cmpAbx (w : Addr) (s : State) :
    exec (.cmpAbx w) s = .next (compareA (.mem (eaAbx w s)) s) := rfl
@[simp] theorem exec_cmpAby (w : Addr) (s : State) :
    exec (.cmpAby w) s = .next (compareA (.mem (eaAby w s)) s) := rfl
@[simp] theorem exec_cmpIzx (z : Byte) (s : State) :
    exec (.cmpIzx z) s = .next (compareA (.mem (eaIzx z s)) s) := rfl
@[simp] theorem exec_cmpIzy (z : Byte) (s : State) :
    exec (.cmpIzy z) s = .next (compareA (.mem (eaIzy z s)) s) := rfl
@[simp] theorem exec_cpxImm (v : Byte) (s : State) :
    exec (.cpxImm v) s = .next (compareX (.imm v) s) := rfl
@[simp] theorem exec_cpxZp (z : Byte) (s : State) :
    exec (.cpxZp z) s = .next (compareX (.mem (eaZp z s)) s) := rfl
@[simp] theorem exec_cpxAbs (w : Addr) (s : State) :
    exec (.cpxAbs w) s = .next (compareX (.mem (eaAbs w s)) s) := rfl
@[simp] theorem exec_cpyImm (v : Byte) (s : State) :
    exec (.cpyImm v) s = .next (compareY (.imm v) s) := rfl
@[simp] theorem exec_cpyZp (z : Byte) (s : State) :
    exec (.cpyZp z) s = .next (compareY (.mem (eaZp z s)) s) := rfl
@[simp] theorem exec_cpyAbs (w : Addr) (s : State) :
    exec (.cpyAbs w) s = .next (compareY (.mem (eaAbs w s)) s) := rfl
@[simp] theorem exec_decZp (z : Byte) (s : State) :
    exec (.decZp z) s = .next (dec (eaZp z s) s) := rfl
@[simp] theorem exec_decZpx (z : Byte) (s : State) :
    exec (.decZpx z) s = .next (dec (eaZpx z s) s) := rfl
@[simp] theorem exec_decAbs (w : Addr) (s : State) :
    exec (.decAbs w) s = .next (dec (eaAbs w s) s) := rfl
@[simp] theorem exec_decAbx (w : Addr) (s : State) :
    exec (.decAbx w) s = .next (dec (eaAbx w s) s) := rfl
@[simp] theorem exec_dex (s : State) :
    exec .dex s = .next (decX s) := rfl
@[simp] theorem exec_dey (s : State) :
    exec .dey s = .next (decY s) := rfl
@[simp] theorem exec_eorImm (v : Byte) (s : State) :
    exec (.eorImm v) s = .next (eorOp (.imm v) s) := rfl
@[simp] theorem exec_eorZp (z : Byte) (s : State) :
    exec (.eorZp z) s = .next (eorOp (.mem (eaZp z s)) s) := rfl
@[simp] theorem exec_eorZpx (z : Byte) (s : State) :
    exec (.eorZpx z) s = .next (eorOp (.mem (eaZpx z s)) s) := rfl
@[simp] theorem exec_eorAbs (w : Addr) (s : State) :
    exec (.eorAbs w) s = .next (eorOp (.mem (eaAbs w s)) s) := rfl
@[simp] theorem exec_eorAbx (w : Addr) (s : State) :
    exec (.eorAbx w) s = .next (eorOp (.mem (eaAbx w s)) s) := rfl
@[simp] theorem exec_eorAby (w : Addr) (s : State) :
    exec (.eorAby w) s = .next (eorOp (.mem (eaAby w s)) s) := rfl
@[simp] theorem exec_eorIzx (z : Byte) (s : State) :
    exec (.eorIzx z) s = .next (eorOp (.mem (eaIzx z s)) s) := rfl
@[simp] theorem exec_eorIzy (z : Byte) (s : State) :
    exec (.eorIzy z) s = .next (eorOp (.mem (eaIzy z s)) s) := rfl
@[simp] theorem exec_incZp (z : Byte) (s : State) :
    exec (.incZp z) s = .next (inc (eaZp z s) s) := rfl
@[simp] theorem exec_incZpx (z : Byte) (s : State) :
    exec (.incZpx z) s = .next (inc (eaZpx z s) s) := rfl
@[simp] theorem exec_incAbs (w : Addr) (s : State) :
    exec (.incAbs w) s = .next (inc (eaAbs w s) s) := rfl
@[simp] theorem exec_incAbx (w : Addr) (s : State) :
    exec (.incAbx w) s = .next (inc (eaAbx w s) s) := rfl
@[simp] theorem exec_inx (s : State) :
    exec .inx s = .next (incX s) := rfl
@[simp] theorem exec_iny (s : State) :
    exec .iny s = .next (incY s) := rfl
@[simp] theorem exec_jmpAbs (w : Addr) (s : State) :
    exec (.jmpAbs w) s = .next (s.setPc w) := rfl
@[simp] theorem exec_jmpInd (w : Addr) (s : State) :
    exec (.jmpInd w) s = .next (jumpThrough w s) := rfl
@[simp] theorem exec_jsr (w : Addr) (s : State) :
    exec (.jsr w) s = .next (jumpSubroutine w s) := rfl
@[simp] theorem exec_ldaImm (v : Byte) (s : State) :
    exec (.ldaImm v) s = .next (lda (.imm v) s) := rfl
@[simp] theorem exec_ldaZp (z : Byte) (s : State) :
    exec (.ldaZp z) s = .next (lda (.mem (eaZp z s)) s) := rfl
@[simp] theorem exec_ldaZpx (z : Byte) (s : State) :
    exec (.ldaZpx z) s = .next (lda (.mem (eaZpx z s)) s) := rfl
@[simp] theorem exec_ldaAbs (w : Addr) (s : State) :
    exec (.ldaAbs w) s = .next (lda (.mem (eaAbs w s)) s) := rfl
@[simp] theorem exec_ldaAbx (w : Addr) (s : State) :
    exec (.ldaAbx w) s = .next (lda (.mem (eaAbx w s)) s) := rfl
@[simp] theorem exec_ldaAby (w : Addr) (s : State) :
    exec (.ldaAby w) s = .next (lda (.mem (eaAby w s)) s) := rfl
@[simp] theorem exec_ldaIzx (z : Byte) (s : State) :
    exec (.ldaIzx z) s = .next (lda (.mem (eaIzx z s)) s) := rfl
@[simp] theorem exec_ldaIzy (z : Byte) (s : State) :
    exec (.ldaIzy z) s = .next (lda (.mem (eaIzy z s)) s) := rfl
@[simp] theorem exec_ldxImm (v : Byte) (s : State) :
    exec (.ldxImm v) s = .next (ldx (.imm v) s) := rfl
@[simp] theorem exec_ldxZp (z : Byte) (s : State) :
    exec (.ldxZp z) s = .next (ldx (.mem (eaZp z s)) s) := rfl
@[simp] theorem exec_ldxZpy (z : Byte) (s : State) :
    exec (.ldxZpy z) s = .next (ldx (.mem (eaZpy z s)) s) := rfl
@[simp] theorem exec_ldxAbs (w : Addr) (s : State) :
    exec (.ldxAbs w) s = .next (ldx (.mem (eaAbs w s)) s) := rfl
@[simp] theorem exec_ldxAby (w : Addr) (s : State) :
    exec (.ldxAby w) s = .next (ldx (.mem (eaAby w s)) s) := rfl
@[simp] theorem exec_ldyImm (v : Byte) (s : State) :
    exec (.ldyImm v) s = .next (ldy (.imm v) s) := rfl
@[simp] theorem exec_ldyZp (z : Byte) (s : State) :
    exec (.ldyZp z) s = .next (ldy (.mem (eaZp z s)) s) := rfl
@[simp] theorem exec_ldyZpx (z : Byte) (s : State) :
    exec (.ldyZpx z) s = .next (ldy (.mem (eaZpx z s)) s) := rfl
@[simp] theorem exec_ldyAbs (w : Addr) (s : State) :
    exec (.ldyAbs w) s = .next (ldy (.mem (eaAbs w s)) s) := rfl
@[simp] theorem exec_ldyAbx (w : Addr) (s : State) :
    exec (.ldyAbx w) s = .next (ldy (.mem (eaAbx w s)) s) := rfl
@[simp] theorem exec_lsrAcc (s : State) :
    exec .lsrAcc s = .next (lsr .acc s) := rfl
@[simp] theorem exec_lsrZp (z : Byte) (s : State) :
    exec (.lsrZp z) s = .next (lsr (.mem (eaZp z s)) s) := rfl
@[simp] theorem exec_lsrZpx (z : Byte) (s : State) :
    exec (.lsrZpx z) s = .next (lsr (.mem (eaZpx z s)) s) := rfl
@[simp] theorem exec_lsrAbs (w : Addr) (s : State) :
    exec (.lsrAbs w) s = .next (lsr (.mem (eaAbs w s)) s) := rfl
@[simp] theorem exec_lsrAbx (w : Addr) (s : State) :
    exec (.lsrAbx w) s = .next (lsr (.mem (eaAbx w s)) s) := rfl
@[simp] theorem exec_nop (s : State) :
    exec .nop s = .next s := rfl
@[simp] theorem exec_oraImm (v : Byte) (s : State) :
    exec (.oraImm v) s = .next (oraOp (.imm v) s) := rfl
@[simp] theorem exec_oraZp (z : Byte) (s : State) :
    exec (.oraZp z) s = .next (oraOp (.mem (eaZp z s)) s) := rfl
@[simp] theorem exec_oraZpx (z : Byte) (s : State) :
    exec (.oraZpx z) s = .next (oraOp (.mem (eaZpx z s)) s) := rfl
@[simp] theorem exec_oraAbs (w : Addr) (s : State) :
    exec (.oraAbs w) s = .next (oraOp (.mem (eaAbs w s)) s) := rfl
@[simp] theorem exec_oraAbx (w : Addr) (s : State) :
    exec (.oraAbx w) s = .next (oraOp (.mem (eaAbx w s)) s) := rfl
@[simp] theorem exec_oraAby (w : Addr) (s : State) :
    exec (.oraAby w) s = .next (oraOp (.mem (eaAby w s)) s) := rfl
@[simp] theorem exec_oraIzx (z : Byte) (s : State) :
    exec (.oraIzx z) s = .next (oraOp (.mem (eaIzx z s)) s) := rfl
@[simp] theorem exec_oraIzy (z : Byte) (s : State) :
    exec (.oraIzy z) s = .next (oraOp (.mem (eaIzy z s)) s) := rfl
@[simp] theorem exec_pha (s : State) :
    exec .pha s = .next (push s.a s) := rfl
@[simp] theorem exec_php (s : State) :
    exec .php s = .next (push s.p s) := rfl
@[simp] theorem exec_pla (s : State) :
    exec .pla s = .next (pullA s) := rfl
@[simp] theorem exec_plp (s : State) :
    exec .plp s = .next (pullP s) := rfl
@[simp] theorem exec_rolAcc (s : State) :
    exec .rolAcc s = .next (rol .acc s) := rfl
@[simp] theorem exec_rolZp (z : Byte) (s : State) :
    exec (.rolZp z) s = .next (rol (.mem (eaZp z s)) s) := rfl
@[simp] theorem exec_rolZpx (z : Byte) (s : State) :
    exec (.rolZpx z) s = .next (rol (.mem (eaZpx z s)) s) := rfl
@[simp] theorem exec_rolAbs (w : Addr) (s : State) :
    exec (.rolAbs w) s = .next (rol (.mem (eaAbs w s)) s) := rfl
@[simp] theorem exec_rolAbx (w : Addr) (s : State) :
    exec (.rolAbx w) s = .next (rol (.mem (eaAbx w s)) s) := rfl
@[simp] theorem exec_rorAcc (s : State) :
    exec .rorAcc s = .next (ror .acc s) := rfl
@[simp] theorem exec_rorZp (z : Byte) (s : State) :
    exec (.rorZp z) s = .next (ror (.mem (eaZp z s)) s) := rfl
@[simp] theorem exec_rorZpx (z : Byte) (s : State) :
    exec (.rorZpx z) s = .next (ror (.mem (eaZpx z s)) s) := rfl
@[simp] theorem exec_rorAbs (w : Addr) (s : State) :
    exec (.rorAbs w) s = .next (ror (.mem (eaAbs w s)) s) := rfl
@[simp] theorem exec_rorAbx (w : Addr) (s : State) :
    exec (.rorAbx w) s = .next (ror (.mem (eaAbx w s)) s) := rfl
@[simp] theorem exec_rti (s : State) :
    exec .rti s = if s.ctx = .normal then .fault .returnOutsideHandler else .next (returnFromHandler s) := rfl
@[simp] theorem exec_rts (s : State) :
    exec .rts s = .next (returnSubroutine s) := rfl
@[simp] theorem exec_sbcImm (v : Byte) (s : State) :
    exec (.sbcImm v) s = .next (sbc (.imm v) s) := rfl
@[simp] theorem exec_sbcZp (z : Byte) (s : State) :
    exec (.sbcZp z) s = .next (sbc (.mem (eaZp z s)) s) := rfl
@[simp] theorem exec_sbcZpx (z : Byte) (s : State) :
    exec (.sbcZpx z) s = .next (sbc (.mem (eaZpx z s)) s) := rfl
@[simp] theorem exec_sbcAbs (w : Addr) (s : State) :
    exec (.sbcAbs w) s = .next (sbc (.mem (eaAbs w s)) s) := rfl
@[simp] theorem exec_sbcAbx (w : Addr) (s : State) :
    exec (.sbcAbx w) s = .next (sbc (.mem (eaAbx w s)) s) := rfl
@[simp] theorem exec_sbcAby (w : Addr) (s : State) :
    exec (.sbcAby w) s = .next (sbc (.mem (eaAby w s)) s) := rfl
@[simp] theorem exec_sbcIzx (z : Byte) (s : State) :
    exec (.sbcIzx z) s = .next (sbc (.mem (eaIzx z s)) s) := rfl
@[simp] theorem exec_sbcIzy (z : Byte) (s : State) :
    exec (.sbcIzy z) s = .next (sbc (.mem (eaIzy z s)) s) := rfl
@[simp] theorem exec_sec (s : State) :
    exec .sec s = .next (writeFlag .C true s) := rfl
@[simp] theorem exec_sed (s : State) :
    exec .sed s = .next (writeFlag .D true s) := rfl
@[simp] theorem exec_sei (s : State) :
    exec .sei s = .next (writeFlag .I true s) := rfl
@[simp] theorem exec_staZp (z : Byte) (s : State) :
    exec (.staZp z) s = .next (storeA (eaZp z s) s) := rfl
@[simp] theorem exec_staZpx (z : Byte) (s : State) :
    exec (.staZpx z) s = .next (storeA (eaZpx z s) s) := rfl
@[simp] theorem exec_staAbs (w : Addr) (s : State) :
    exec (.staAbs w) s = .next (storeA (eaAbs w s) s) := rfl
@[simp] theorem exec_staAbx (w : Addr) (s : State) :
    exec (.staAbx w) s = .next (storeA (eaAbx w s) s) := rfl
@[simp] theorem exec_staAby (w : Addr) (s : State) :
    exec (.staAby w) s = .next (storeA (eaAby w s) s) := rfl
@[simp] theorem exec_staIzx (z : Byte) (s : State) :
    exec (.staIzx z) s = .next (storeA (eaIzx z s) s) := rfl
@[simp] theorem exec_staIzy (z : Byte) (s : State) :
    exec (.staIzy z) s = .next (storeA (eaIzy z s) s) := rfl
@[simp] theorem exec_stxZp (z : Byte) (s : State) :
    exec (.stxZp z) s = .next (storeX (eaZp z s) s) := rfl
@[simp] theorem exec_stxZpy (z : Byte) (s : State) :
    exec (.stxZpy z) s = .next (storeX (eaZpy z s) s) := rfl
@[simp] theorem exec_stxAbs (w : Addr) (s : State) :
    exec (.stxAbs w) s = .next (storeX (eaAbs w s) s) := rfl
@[simp] theorem exec_styZp (z : Byte) (s : State) :
    exec (.styZp z) s = .next (storeY (eaZp z s) s) := rfl
@[simp] theorem exec_styZpx (z : Byte) (s : State) :
    exec (.styZpx z) s = .next (storeY (eaZpx z s) s) := rfl
@[simp] theorem exec_styAbs (w : Addr) (s : State) :
    exec (.styAbs w) s = .next (storeY (eaAbs w s) s) := rfl
@[simp] theorem exec_tax (s : State) :
    exec .tax s = .next (copyToX s.a s) := rfl
@[simp] theorem exec_tay (s : State) :
    exec .tay s = .next (copyToY s.a s) := rfl
@[simp] theorem exec_tsx (s : State) :
    exec .tsx s = .next (copyToX s.sp s) := rfl
@[simp] theorem exec_txa (s : State) :
    exec .txa s = .next (copyToA s.x s) := rfl
@[simp] theorem exec_txs (s : State) :
    exec .txs s = .next (s.setSp s.x) := rfl
@[simp] theorem exec_tya (s : State) :
    exec .tya s = .next (copyToA s.y s) := rfl

/-! ## By mnemonic: every form of an instruction is its shared operation on that form's operand -/

/-- Every form of ADC is `adc` on its operand. -/
theorem exec_of_ADC (i : Instr) (s : State) (h : i.mnemonic = .ADC) :
    ∃ o, operandOf i s = some (readSource o s) ∧ exec i s = .next (adc o s) := by
  cases i <;> simp [Instr.mnemonic, Instr.shape] at h <;>
    first | exact ⟨.imm _, rfl, rfl⟩ | exact ⟨.mem _, rfl, rfl⟩

/-- Every form of SBC is `sbc` on its operand. -/
theorem exec_of_SBC (i : Instr) (s : State) (h : i.mnemonic = .SBC) :
    ∃ o, operandOf i s = some (readSource o s) ∧ exec i s = .next (sbc o s) := by
  cases i <;> simp [Instr.mnemonic, Instr.shape] at h <;>
    first | exact ⟨.imm _, rfl, rfl⟩ | exact ⟨.mem _, rfl, rfl⟩

/-- Every form of CMP is `compareA` on its operand. -/
theorem exec_of_CMP (i : Instr) (s : State) (h : i.mnemonic = .CMP) :
    ∃ o, operandOf i s = some (readSource o s) ∧ exec i s = .next (compareA o s) := by
  cases i <;> simp [Instr.mnemonic, Instr.shape] at h <;>
    first | exact ⟨.imm _, rfl, rfl⟩ | exact ⟨.mem _, rfl, rfl⟩

/-- Every form of CPX is `compareX` on its operand. -/
theorem exec_of_CPX (i : Instr) (s : State) (h : i.mnemonic = .CPX) :
    ∃ o, operandOf i s = some (readSource o s) ∧ exec i s = .next (compareX o s) := by
  cases i <;> simp [Instr.mnemonic, Instr.shape] at h <;>
    first | exact ⟨.imm _, rfl, rfl⟩ | exact ⟨.mem _, rfl, rfl⟩

/-- Every form of CPY is `compareY` on its operand. -/
theorem exec_of_CPY (i : Instr) (s : State) (h : i.mnemonic = .CPY) :
    ∃ o, operandOf i s = some (readSource o s) ∧ exec i s = .next (compareY o s) := by
  cases i <;> simp [Instr.mnemonic, Instr.shape] at h <;>
    first | exact ⟨.imm _, rfl, rfl⟩ | exact ⟨.mem _, rfl, rfl⟩

/-- Every form of AND is `andOp` on its operand. -/
theorem exec_of_AND (i : Instr) (s : State) (h : i.mnemonic = .AND) :
    ∃ o, operandOf i s = some (readSource o s) ∧ exec i s = .next (andOp o s) := by
  cases i <;> simp [Instr.mnemonic, Instr.shape] at h <;>
    first | exact ⟨.imm _, rfl, rfl⟩ | exact ⟨.mem _, rfl, rfl⟩

/-- Every form of ORA is `oraOp` on its operand. -/
theorem exec_of_ORA (i : Instr) (s : State) (h : i.mnemonic = .ORA) :
    ∃ o, operandOf i s = some (readSource o s) ∧ exec i s = .next (oraOp o s) := by
  cases i <;> simp [Instr.mnemonic, Instr.shape] at h <;>
    first | exact ⟨.imm _, rfl, rfl⟩ | exact ⟨.mem _, rfl, rfl⟩

/-- Every form of EOR is `eorOp` on its operand. -/
theorem exec_of_EOR (i : Instr) (s : State) (h : i.mnemonic = .EOR) :
    ∃ o, operandOf i s = some (readSource o s) ∧ exec i s = .next (eorOp o s) := by
  cases i <;> simp [Instr.mnemonic, Instr.shape] at h <;>
    first | exact ⟨.imm _, rfl, rfl⟩ | exact ⟨.mem _, rfl, rfl⟩

/-- Every form of LDA is `lda` on its operand. -/
theorem exec_of_LDA (i : Instr) (s : State) (h : i.mnemonic = .LDA) :
    ∃ o, operandOf i s = some (readSource o s) ∧ exec i s = .next (lda o s) := by
  cases i <;> simp [Instr.mnemonic, Instr.shape] at h <;>
    first | exact ⟨.imm _, rfl, rfl⟩ | exact ⟨.mem _, rfl, rfl⟩

/-- Every form of LDX is `ldx` on its operand. -/
theorem exec_of_LDX (i : Instr) (s : State) (h : i.mnemonic = .LDX) :
    ∃ o, operandOf i s = some (readSource o s) ∧ exec i s = .next (ldx o s) := by
  cases i <;> simp [Instr.mnemonic, Instr.shape] at h <;>
    first | exact ⟨.imm _, rfl, rfl⟩ | exact ⟨.mem _, rfl, rfl⟩

/-- Every form of LDY is `ldy` on its operand. -/
theorem exec_of_LDY (i : Instr) (s : State) (h : i.mnemonic = .LDY) :
    ∃ o, operandOf i s = some (readSource o s) ∧ exec i s = .next (ldy o s) := by
  cases i <;> simp [Instr.mnemonic, Instr.shape] at h <;>
    first | exact ⟨.imm _, rfl, rfl⟩ | exact ⟨.mem _, rfl, rfl⟩

/-- Every form of BIT is `bitTest` at its effective address. -/
theorem exec_of_BIT (i : Instr) (s : State) (h : i.mnemonic = .BIT) :
    ∃ ea, modeAddress i.mode s = some ea ∧ operandOf i s = some (cpuRead ea s) ∧ exec i s = .next (bitTest ea s) := by
  cases i <;> simp [Instr.mnemonic, Instr.shape] at h <;> exact ⟨_, rfl, rfl, rfl⟩

/-- Every form of INC is `inc` at its effective address. -/
theorem exec_of_INC (i : Instr) (s : State) (h : i.mnemonic = .INC) :
    ∃ ea, modeAddress i.mode s = some ea ∧ operandOf i s = some (cpuRead ea s) ∧ exec i s = .next (inc ea s) := by
  cases i <;> simp [Instr.mnemonic, Instr.shape] at h <;> exact ⟨_, rfl, rfl, rfl⟩

/-- Every form of DEC is `dec` at its effective address. -/
theorem exec_of_DEC (i : Instr) (s : State) (h : i.mnemonic = .DEC) :
    ∃ ea, modeAddress i.mode s = some ea ∧ operandOf i s = some (cpuRead ea s) ∧ exec i s = .next (dec ea s) := by
  cases i <;> simp [Instr.mnemonic, Instr.shape] at h <;> exact ⟨_, rfl, rfl, rfl⟩

/-- Every form of STA is `storeA` at its effective address. -/
theorem exec_of_STA (i : Instr) (s : State) (h : i.mnemonic = .STA) :
    ∃ ea, modeAddress i.mode s = some ea ∧ operandOf i s = some (cpuRead ea s) ∧ exec i s = .next (storeA ea s) := by
  cases i <;> simp [Instr.mnemonic, Instr.shape] at h <;> exact ⟨_, rfl, rfl, rfl⟩

/-- Every form of STX is `storeX` at its effective address. -/
theorem exec_of_STX (i : Instr) (s : State) (h : i.mnemonic = .STX) :
    ∃ ea, modeAddress i.mode s = some ea ∧ operandOf i s = some (cpuRead ea s) ∧ exec i s = .next (storeX ea s) := by
  cases i <;> simp [Instr.mnemonic, Instr.shape] at h <;> exact ⟨_, rfl, rfl, rfl⟩

/-- Every form of STY is `storeY` at its effective address. -/
theorem exec_of_STY (i : Instr) (s : State) (h : i.mnemonic = .STY) :
    ∃ ea, modeAddress i.mode s = some ea ∧ operandOf i s = some (cpuRead ea s) ∧ exec i s = .next (storeY ea s) := by
  cases i <;> simp [Instr.mnemonic, Instr.shape] at h <;> exact ⟨_, rfl, rfl, rfl⟩

/-- Every form of ASL is `asl` at its place: A, or its effective address. -/
theorem exec_of_ASL (i : Instr) (s : State) (h : i.mnemonic = .ASL) :
    (i.mode = .acc ∧ exec i s = .next (asl .acc s)) ∨
    ∃ ea, modeAddress i.mode s = some ea ∧ exec i s = .next (asl (.mem ea) s) := by
  cases i <;> simp [Instr.mnemonic, Instr.shape] at h <;>
    first | exact .inl ⟨rfl, rfl⟩ | exact .inr ⟨_, rfl, rfl⟩

/-- Every form of LSR is `lsr` at its place: A, or its effective address. -/
theorem exec_of_LSR (i : Instr) (s : State) (h : i.mnemonic = .LSR) :
    (i.mode = .acc ∧ exec i s = .next (lsr .acc s)) ∨
    ∃ ea, modeAddress i.mode s = some ea ∧ exec i s = .next (lsr (.mem ea) s) := by
  cases i <;> simp [Instr.mnemonic, Instr.shape] at h <;>
    first | exact .inl ⟨rfl, rfl⟩ | exact .inr ⟨_, rfl, rfl⟩

/-- Every form of ROL is `rol` at its place: A, or its effective address. -/
theorem exec_of_ROL (i : Instr) (s : State) (h : i.mnemonic = .ROL) :
    (i.mode = .acc ∧ exec i s = .next (rol .acc s)) ∨
    ∃ ea, modeAddress i.mode s = some ea ∧ exec i s = .next (rol (.mem ea) s) := by
  cases i <;> simp [Instr.mnemonic, Instr.shape] at h <;>
    first | exact .inl ⟨rfl, rfl⟩ | exact .inr ⟨_, rfl, rfl⟩

/-- Every form of ROR is `ror` at its place: A, or its effective address. -/
theorem exec_of_ROR (i : Instr) (s : State) (h : i.mnemonic = .ROR) :
    (i.mode = .acc ∧ exec i s = .next (ror .acc s)) ∨
    ∃ ea, modeAddress i.mode s = some ea ∧ exec i s = .next (ror (.mem ea) s) := by
  cases i <;> simp [Instr.mnemonic, Instr.shape] at h <;>
    first | exact .inl ⟨rfl, rfl⟩ | exact .inr ⟨_, rfl, rfl⟩

end Sys2Proof.Machine
end

