-- ==== Sys2Proof/Laws/Memory.lean ====
section
/-! SUPPORT. Read after write, and that every operation on a memory keeps its canonical form. -/

namespace Sys2Proof.Machine

/-- An offset below every listed one reads as unlisted. -/
theorem Memory.read_of_lt (m : Memory) (a : Nat) (h : ∀ c ∈ m, a < c.1) : Memory.read m a = Memory.unlisted := by
  induction m with
  | nil => rfl
  | cons c m ih =>
    obtain ⟨k, b⟩ := c
    have hk : a < k := h (k, b) (by simp)
    have := ih fun c hc => h c (by simp [hc])
    simp [Memory.read, this, Nat.ne_of_gt hk]

/-- A write changes the byte at its own offset and no other. -/
theorem Memory.read_write (m : Memory) (h : Memory.wf m) (a b : Nat) (v : Byte) :
    Memory.read (Memory.write m a v) b = if b = a then v else Memory.read m b := by
  induction m with
  | nil =>
    by_cases hv : v = Memory.unlisted
    · simp [Memory.write, Memory.read, hv]
    · simp [Memory.write, Memory.read, hv, eq_comm]
  | cons c m ih =>
    obtain ⟨k, w⟩ := c
    obtain ⟨hp, hn⟩ := h
    rw [List.pairwise_cons] at hp
    have hm : Memory.wf m := ⟨hp.2, fun c hc => hn c (by simp [hc])⟩
    have hlt : ∀ c ∈ m, k < c.1 := fun c hc => hp.1 c hc
    have hk : Memory.read m k = Memory.unlisted := Memory.read_of_lt m k hlt
    unfold Memory.write
    split
    · have ha : ∀ c ∈ ((k, w) :: m : Memory), a < c.1 := by
        intro c hc
        rcases List.mem_cons.1 hc with rfl | hc
        · assumption
        · exact Nat.lt_trans (by assumption) (hlt c hc)
      have hra := Memory.read_of_lt _ a ha
      split <;> by_cases hb : b = a <;> simp_all [Memory.read, eq_comm]
    · split
      · split <;> by_cases hb : b = a <;> simp_all [Memory.read, eq_comm]
      · simp only [Memory.read, ih hm]
        split <;> split <;> simp_all

/-- The byte just written is read back. -/
theorem Memory.read_write_same (m : Memory) (h : Memory.wf m) (a : Nat) (v : Byte) :
    Memory.read (Memory.write m a v) a = v := by simp [Memory.read_write m h]

/-- What a write lists: old entries, and possibly the new one. -/
theorem Memory.mem_write {m : Memory} {a : Nat} {v : Byte} {c : Host.Cell} (h : c ∈ Memory.write m a v) :
    c ∈ m ∨ (c = (a, v) ∧ v ≠ Memory.unlisted) := by
  induction m with
  | nil =>
    unfold Memory.write at h
    split at h <;> simp_all
  | cons d m ih =>
    obtain ⟨k, w⟩ := d
    unfold Memory.write at h
    split at h
    · split at h <;> simp_all
      tauto
    · split at h
      · split at h <;> simp_all
        tauto
      · rcases List.mem_cons.1 h with h | h
        · simp [h]
        · rcases ih h with h | h
          · simp [h]
          · exact .inr h

/-- A write keeps the canonical form. -/
theorem Memory.wf_write (m : Memory) (h : Memory.wf m) (a : Nat) (v : Byte) :
    Memory.wf (Memory.write m a v) := by
  induction m with
  | nil => unfold Memory.write; split <;> simp_all [Memory.wf]
  | cons d m ih =>
    obtain ⟨k, w⟩ := d
    obtain ⟨hp, hn⟩ := h
    rw [List.pairwise_cons] at hp
    have hm : Memory.wf m := ⟨hp.2, fun c hc => hn c (by simp [hc])⟩
    have hw : w ≠ Memory.unlisted := hn (k, w) (by simp)
    unfold Memory.write
    split
    · split
      · exact ⟨List.pairwise_cons.2 hp, hn⟩
      · refine ⟨List.pairwise_cons.2 ⟨?_, List.pairwise_cons.2 hp⟩, ?_⟩
        · intro c hc
          rcases List.mem_cons.1 hc with rfl | hc
          · assumption
          · exact Nat.lt_trans (by assumption) (hp.1 c hc)
        · intro c hc
          rcases List.mem_cons.1 hc with rfl | hc
          · assumption
          · exact hn c hc
    · split
      · split
        · exact hm
        · rename_i _ he hv
          subst he
          refine ⟨List.pairwise_cons.2 hp, ?_⟩
          intro c hc
          rcases List.mem_cons.1 hc with rfl | hc
          · exact hv
          · exact hm.2 c hc
      · have hi := ih hm
        refine ⟨List.pairwise_cons.2 ⟨?_, hi.1⟩, ?_⟩
        · intro c hc
          rcases Memory.mem_write hc with hc | ⟨rfl, _⟩
          · exact hp.1 c hc
          · show k < a
            omega
        · intro c hc
          rcases List.mem_cons.1 hc with rfl | hc
          · exact hw
          · exact hi.2 c hc

/-- A write inside an array keeps the memory inside it. -/
theorem Memory.within_write (m : Memory) (n : Nat) (h : Memory.within n m) (a : Nat) (ha : a < n) (v : Byte) :
    Memory.within n (Memory.write m a v) := by
  intro c hc
  rcases Memory.mem_write hc with hc | ⟨rfl, _⟩
  · exact h c hc
  · exact ha

/-- Both together. -/
theorem Memory.good_write (m : Memory) (n : Nat) (h : Memory.good n m) (a : Nat) (ha : a < n) (v : Byte) :
    Memory.good n (Memory.write m a v) :=
  ⟨Memory.wf_write m h.1 a v, Memory.within_write m n h.2 a ha v⟩

/-- The offsets an image lists. -/
theorem Memory.ofBytesFrom_range (n k : Nat) (bs : List Byte) :
    ∀ c ∈ Memory.ofBytesFrom n k bs, k ≤ c.1 ∧ c.1 < k + n ∧ c.2 ≠ Memory.unlisted := by
  induction n generalizing k bs with
  | zero => simp [Memory.ofBytesFrom]
  | succ n ih =>
    cases bs with
    | nil => simp [Memory.ofBytesFrom]
    | cons b bs =>
      intro c hc
      unfold Memory.ofBytesFrom at hc
      split at hc
      · have := ih (k + 1) bs c hc
        exact ⟨by omega, by omega, this.2.2⟩
      · rcases List.mem_cons.1 hc with rfl | hc
        · exact ⟨Nat.le_refl _, by show k < k + (n + 1); omega, by assumption⟩
        · have := ih (k + 1) bs c hc
          exact ⟨by omega, by omega, this.2.2⟩

/-- An image is a canonical memory inside its array. -/
theorem Memory.ofBytes_good (n : Nat) (bs : List Byte) : Memory.good n (Memory.ofBytes n bs) := by
  have key : ∀ n k (bs : List Byte),
      List.Pairwise (fun c d : Host.Cell => c.1 < d.1) (Memory.ofBytesFrom n k bs) := by
    intro n
    induction n with
    | zero => simp [Memory.ofBytesFrom]
    | succ n ih =>
      intro k bs
      cases bs with
      | nil => simp [Memory.ofBytesFrom]
      | cons b bs =>
        unfold Memory.ofBytesFrom
        split
        · exact ih (k + 1) bs
        · refine List.pairwise_cons.2 ⟨?_, ih (k + 1) bs⟩
          intro c hc
          have := (Memory.ofBytesFrom_range n (k + 1) bs c hc).1
          exact this
  refine ⟨⟨key n 0 bs, fun c hc => (Memory.ofBytesFrom_range n 0 bs c hc).2.2⟩, ?_⟩
  intro c hc
  have := (Memory.ofBytesFrom_range n 0 bs c hc).2.1
  omega

/-- Below its first offset an image lists nothing. -/
theorem Memory.read_ofBytesFrom_below (n k : Nat) (bs : List Byte) (i : Nat) (h : i < k) :
    Memory.read (Memory.ofBytesFrom n k bs) i = Memory.unlisted := by
  induction n generalizing k bs with
  | zero => rfl
  | succ n ih =>
    cases bs with
    | nil => rfl
    | cons b bs =>
      simp only [Memory.ofBytesFrom]
      split
      · exact ih _ _ (by omega)
      · rw [Memory.read, if_neg (by omega)]
        exact ih _ _ (by omega)

/-- An image laid down from `k` reads as its bytes, and zero beyond them (R551, R552). -/
theorem Memory.read_ofBytesFrom (n k : Nat) (bs : List Byte) (i : Nat) (h1 : k ≤ i) (h2 : i < k + n) :
    Memory.read (Memory.ofBytesFrom n k bs) i = bs.getD (i - k) 0 := by
  induction n generalizing k bs with
  | zero => omega
  | succ n ih =>
    cases bs with
    | nil => rfl
    | cons b bs =>
      simp only [Memory.ofBytesFrom]
      by_cases e : i = k
      · subst e
        split
        · rename_i h
          rw [Memory.read_ofBytesFrom_below _ _ _ _ (by omega)]
          simp [h]
        · simp [Memory.read]
      · have hs : i - k = (i - (k + 1)) + 1 := by omega
        split
        · rw [ih _ _ (by omega) (by omega), hs]
          rfl
        · rw [Memory.read, if_neg (by omega), ih _ _ (by omega) (by omega), hs]
          rfl

end Sys2Proof.Machine
end

