-- ==== Sys2Proof/Laws/Space.lean ====
section
/-! SUPPORT. What the shared operations over the processor space can do, said once: which cell an address
designates, what a read and a write leave as it was, and the exact effect of the stack operations. -/

namespace Sys2Proof.Machine

/-! ## 16-bit quantities as two bytes -/

theorem word16_toNat (lo hi : Byte) : (word16 lo hi).toNat = hi.toNat * 256 + lo.toNat := by
  simp only [word16, BitVec.toNat_append]
  rw [← Nat.shiftLeft_add_eq_or_of_lt lo.isLt, Nat.shiftLeft_eq]

theorem word16_eq (lo hi : Byte) : word16 lo hi = BitVec.ofNat 16 (hi.toNat * 256 + lo.toNat) := by
  apply BitVec.eq_of_toNat_eq
  have := lo.isLt
  have := hi.isLt
  rw [word16_toNat, BitVec.toNat_ofNat]
  omega

theorem lowByte_toNat (w : Addr) : (lowByte w).toNat = w.toNat % 256 := by
  simp [lowByte, BitVec.extractLsb'_toNat]

theorem highByte_toNat (w : Addr) : (highByte w).toNat = w.toNat / 256 := by
  have := w.isLt
  simp only [highByte, BitVec.extractLsb'_toNat, Nat.shiftRight_eq_div_pow]
  omega

/-- An address is its two bytes. -/
@[simp] theorem word16_bytes (w : Addr) : word16 (lowByte w) (highByte w) = w := by
  apply BitVec.eq_of_toNat_eq
  rw [word16_toNat, lowByte_toNat, highByte_toNat]
  omega

@[simp] theorem lowByte_word16 (lo hi : Byte) : lowByte (word16 lo hi) = lo := by
  apply BitVec.eq_of_toNat_eq
  have := lo.isLt
  rw [lowByte_toNat, word16_toNat]
  omega

@[simp] theorem highByte_word16 (lo hi : Byte) : highByte (word16 lo hi) = hi := by
  apply BitVec.eq_of_toNat_eq
  have := lo.isLt
  rw [highByte_toNat, word16_toNat]
  omega

/-! ## Mirroring and translation -/

theorem mirrorCpu_lt (c : Config) (a : Addr) : mirrorCpu c a < 0x10000 := by
  have := a.isLt
  simp only [mirrorCpu]
  split
  · omega
  · split <;> omega

/-- Below 0x2000 the mirror is the remainder modulo 0x0800 (R72). -/
theorem mirrorCpu_low (c : Config) (a : Addr) (h : a.toNat < 0x2000) : mirrorCpu c a = a.toNat % 0x800 := by
  simp [mirrorCpu, h]

/-- At and above the upper bound of the register mirror nothing is folded (R72). -/
theorem mirrorCpu_high (c : Config) (a : Addr) (h : 0x2000 ≤ a.toNat) (hc : c.regMirrorHi ≤ a.toNat) :
    mirrorCpu c a = a.toNat := by
  simp only [mirrorCpu]
  split
  · omega
  · split
    · omega
    · rfl

/-- The range of R74 a mirrored address lies in, address by address. -/
theorem translateCpu_eq (m : Nat) :
    translateCpu m =
      if m < 0x100 then some ⟨0x0000, 0x0100, .zp, true⟩
      else if m < 0x200 then some ⟨0x0100, 0x0200, .stk, true⟩
      else if m < 0x800 then some ⟨0x0200, 0x0800, .ram, true⟩
      else if m < 0x6000 then none
      else if m < 0x8000 then some ⟨0x6000, 0x8000, .sram, true⟩
      else if m < 0x10000 then some ⟨0x8000, 0x10000, .prg, false⟩
      else none := by
  simp only [translateCpu, cpuRegions, List.find?_cons, List.find?_nil]
  repeat' split
  all_goals simp_all
  all_goals omega

/-- The cell a mirrored address designates, address by address. -/
theorem cellOf_eq (m : Nat) :
    cellOf m =
      if m < 0x100 then (.zp, m)
      else if m < 0x200 then (.stk, m - 0x100)
      else if m < 0x800 then (.ram, m - 0x200)
      else if m < 0x6000 then (.fallback, m)
      else if m < 0x8000 then (.sram, m - 0x6000)
      else if m < 0x10000 then (.prg, m - 0x8000)
      else (.fallback, m) := by
  simp only [cellOf, translateCpu_eq]
  split_ifs <;> simp

/-- Two mirrored addresses that designate one cell are one address. -/
theorem cellOf_inj {m n : Nat} (h : cellOf m = cellOf n) : m = n := by
  simp only [cellOf_eq] at h
  repeat' split at h
  all_goals simp_all
  all_goals omega

/-- The cell of a mirrored address lies inside its array. -/
theorem cellOf_lt {m : Nat} (h : m < 0x10000) : (cellOf m).2 < (cellOf m).1.size := by
  simp only [cellOf_eq]
  repeat' split
  all_goals simp only [Backing.size]
  all_goals omega

/-- Reading a byte after replacing the byte at a mirrored address. -/
theorem peek_storeCell (s : State) (m : Nat) (v : Byte) (a : Addr) (h : (s.memory (cellOf m).1).wf) :
    peek (storeCell s m v) a = if mirrorCpu s.cfg a = m then v else peek s a := by
  simp only [peek, storeCell, State.setMemory_cfg, State.memory_setMemory]
  by_cases hb : (cellOf (mirrorCpu s.cfg a)).1 = (cellOf m).1
  · rw [if_pos hb, Memory.read_write _ h]
    by_cases hk : (cellOf (mirrorCpu s.cfg a)).2 = (cellOf m).2
    · have := cellOf_inj (Prod.ext hb hk)
      simp [this]
    · have hne : mirrorCpu s.cfg a ≠ m := fun e => hk (by rw [e])
      rw [if_neg hk, if_neg hne, hb]
  · have hne : mirrorCpu s.cfg a ≠ m := fun e => hb (by rw [e])
    rw [if_neg hb, if_neg hne]

/-! ## The byte read -/

/-- A read of a static range answers the stored byte and changes nothing (R80). -/
theorem cpuRead_static (a : Addr) (s : State) (r : Region) (h : translateCpu (mirrorCpu s.cfg a) = some r) :
    cpuRead a s = (peek s a, s) := by
  simp [cpuRead, h]

/-- A read below 0x2000 (work RAM and its mirrors) is a static read. -/
theorem cpuRead_low (a : Addr) (s : State) (h : a.toNat < 0x2000) : cpuRead a s = (peek s a, s) := by
  have : translateCpu (mirrorCpu s.cfg a) ≠ none := by
    rw [mirrorCpu_low _ _ h, translateCpu_eq]
    repeat' split
    all_goals simp
    all_goals omega
  obtain ⟨r, hr⟩ := Option.ne_none_iff_exists'.1 this
  exact cpuRead_static a s r hr

/-- A read of program storage is a static read. -/
theorem cpuRead_programStorage (a : Addr) (s : State) (hc : s.cfg.regMirrorHi ≤ 0x8000) (h : 0x8000 ≤ a.toNat) :
    cpuRead a s = (peek s a, s) := by
  have := a.isLt
  refine cpuRead_static a s ⟨0x8000, 0x10000, .prg, false⟩ ?_
  rw [mirrorCpu_high _ _ (by omega) (by omega), translateCpu_eq]
  repeat' split
  all_goals first | rfl | omega

/-- The byte stored at an address of program storage. -/
theorem peek_programStorage (a : Addr) (s : State) (hc : s.cfg.regMirrorHi ≤ 0x8000) (h : 0x8000 ≤ a.toNat) :
    peek s a = s.prg.read (a.toNat - 0x8000) := by
  have := a.isLt
  have hm : mirrorCpu s.cfg a = a.toNat := mirrorCpu_high _ _ (by omega) (by omega)
  have ht : cellOf a.toNat = (.prg, a.toNat - 0x8000) := by
    rw [cellOf_eq]
    repeat' split
    all_goals first | rfl | omega
  simp only [peek, hm, ht]
  rfl

/-- Everything a read can do: nothing, a device read, or a fallback read with its log entry (R80). -/
theorem cpuRead_cases (a : Addr) (s : State) :
    cpuRead a s = (peek s a, s) ∨
    (∃ r, dispatchRead (mirrorCpu s.cfg a) s = some r ∧ cpuRead a s = r) ∨
    cpuRead a s = (s.fallback.read (mirrorCpu s.cfg a), logAnomaly (mirrorCpu s.cfg a) .read s) := by
  simp only [cpuRead]
  split
  · simp
  · split
    · rename_i r h
      exact .inr (.inl ⟨r, h, rfl⟩)
    · simp

/-- Everything a device read can leave (R82). -/
theorem dispatchRead_cases {m : Nat} {s : State} {r : Byte × State} (h : dispatchRead m s = some r) :
    (∃ u, r.2 = s.setPpu u ∧
      (u = s.ppu.afterStatusRead s.cfg.statusReadClearsVblank ∨ u = (s.ppu.readData s.cfg.mirroring).2)) ∨
    r.2 = s ∨ r.2 = (readPort0 s).2 ∨ r.2 = (readPort1 s).2 := by
  simp only [dispatchRead] at h
  repeat' split at h
  all_goals cases h
  all_goals first
    | exact .inl ⟨_, rfl, .inl rfl⟩
    | exact .inl ⟨_, rfl, .inr rfl⟩
    | exact .inr (.inl rfl)
    | exact .inr (.inr (.inl rfl))
    | exact .inr (.inr (.inr rfl))

@[simp] theorem cpuRead_a (a : Addr) (s : State) : (cpuRead a s).2.a = s.a := by
  rcases cpuRead_cases a s with h | ⟨r, hr, h⟩ | h
  · rw [h]
  · rw [h]
    rcases dispatchRead_cases hr with ⟨u, hu, _⟩ | hu | hu | hu <;> rw [hu] <;> rfl
  · rw [h]; rfl

@[simp] theorem cpuRead_x (a : Addr) (s : State) : (cpuRead a s).2.x = s.x := by
  rcases cpuRead_cases a s with h | ⟨r, hr, h⟩ | h
  · rw [h]
  · rw [h]
    rcases dispatchRead_cases hr with ⟨u, hu, _⟩ | hu | hu | hu <;> rw [hu] <;> rfl
  · rw [h]; rfl

@[simp] theorem cpuRead_y (a : Addr) (s : State) : (cpuRead a s).2.y = s.y := by
  rcases cpuRead_cases a s with h | ⟨r, hr, h⟩ | h
  · rw [h]
  · rw [h]
    rcases dispatchRead_cases hr with ⟨u, hu, _⟩ | hu | hu | hu <;> rw [hu] <;> rfl
  · rw [h]; rfl

@[simp] theorem cpuRead_sp (a : Addr) (s : State) : (cpuRead a s).2.sp = s.sp := by
  rcases cpuRead_cases a s with h | ⟨r, hr, h⟩ | h
  · rw [h]
  · rw [h]
    rcases dispatchRead_cases hr with ⟨u, hu, _⟩ | hu | hu | hu <;> rw [hu] <;> rfl
  · rw [h]; rfl

@[simp] theorem cpuRead_p (a : Addr) (s : State) : (cpuRead a s).2.p = s.p := by
  rcases cpuRead_cases a s with h | ⟨r, hr, h⟩ | h
  · rw [h]
  · rw [h]
    rcases dispatchRead_cases hr with ⟨u, hu, _⟩ | hu | hu | hu <;> rw [hu] <;> rfl
  · rw [h]; rfl

@[simp] theorem cpuRead_pc (a : Addr) (s : State) : (cpuRead a s).2.pc = s.pc := by
  rcases cpuRead_cases a s with h | ⟨r, hr, h⟩ | h
  · rw [h]
  · rw [h]
    rcases dispatchRead_cases hr with ⟨u, hu, _⟩ | hu | hu | hu <;> rw [hu] <;> rfl
  · rw [h]; rfl

@[simp] theorem cpuRead_retPc (a : Addr) (s : State) : (cpuRead a s).2.retPc = s.retPc := by
  rcases cpuRead_cases a s with h | ⟨r, hr, h⟩ | h
  · rw [h]
  · rw [h]
    rcases dispatchRead_cases hr with ⟨u, hu, _⟩ | hu | hu | hu <;> rw [hu] <;> rfl
  · rw [h]; rfl

@[simp] theorem cpuRead_ctx (a : Addr) (s : State) : (cpuRead a s).2.ctx = s.ctx := by
  rcases cpuRead_cases a s with h | ⟨r, hr, h⟩ | h
  · rw [h]
  · rw [h]
    rcases dispatchRead_cases hr with ⟨u, hu, _⟩ | hu | hu | hu <;> rw [hu] <;> rfl
  · rw [h]; rfl

@[simp] theorem cpuRead_nmiPending (a : Addr) (s : State) : (cpuRead a s).2.nmiPending = s.nmiPending := by
  rcases cpuRead_cases a s with h | ⟨r, hr, h⟩ | h
  · rw [h]
  · rw [h]
    rcases dispatchRead_cases hr with ⟨u, hu, _⟩ | hu | hu | hu <;> rw [hu] <;> rfl
  · rw [h]; rfl

@[simp] theorem cpuRead_irqPending (a : Addr) (s : State) : (cpuRead a s).2.irqPending = s.irqPending := by
  rcases cpuRead_cases a s with h | ⟨r, hr, h⟩ | h
  · rw [h]
  · rw [h]
    rcases dispatchRead_cases hr with ⟨u, hu, _⟩ | hu | hu | hu <;> rw [hu] <;> rfl
  · rw [h]; rfl

@[simp] theorem cpuRead_zp (a : Addr) (s : State) : (cpuRead a s).2.zp = s.zp := by
  rcases cpuRead_cases a s with h | ⟨r, hr, h⟩ | h
  · rw [h]
  · rw [h]
    rcases dispatchRead_cases hr with ⟨u, hu, _⟩ | hu | hu | hu <;> rw [hu] <;> rfl
  · rw [h]; rfl

@[simp] theorem cpuRead_stk (a : Addr) (s : State) : (cpuRead a s).2.stk = s.stk := by
  rcases cpuRead_cases a s with h | ⟨r, hr, h⟩ | h
  · rw [h]
  · rw [h]
    rcases dispatchRead_cases hr with ⟨u, hu, _⟩ | hu | hu | hu <;> rw [hu] <;> rfl
  · rw [h]; rfl

@[simp] theorem cpuRead_ram (a : Addr) (s : State) : (cpuRead a s).2.ram = s.ram := by
  rcases cpuRead_cases a s with h | ⟨r, hr, h⟩ | h
  · rw [h]
  · rw [h]
    rcases dispatchRead_cases hr with ⟨u, hu, _⟩ | hu | hu | hu <;> rw [hu] <;> rfl
  · rw [h]; rfl

@[simp] theorem cpuRead_sram (a : Addr) (s : State) : (cpuRead a s).2.sram = s.sram := by
  rcases cpuRead_cases a s with h | ⟨r, hr, h⟩ | h
  · rw [h]
  · rw [h]
    rcases dispatchRead_cases hr with ⟨u, hu, _⟩ | hu | hu | hu <;> rw [hu] <;> rfl
  · rw [h]; rfl

@[simp] theorem cpuRead_prg (a : Addr) (s : State) : (cpuRead a s).2.prg = s.prg := by
  rcases cpuRead_cases a s with h | ⟨r, hr, h⟩ | h
  · rw [h]
  · rw [h]
    rcases dispatchRead_cases hr with ⟨u, hu, _⟩ | hu | hu | hu <;> rw [hu] <;> rfl
  · rw [h]; rfl

@[simp] theorem cpuRead_prgPristine (a : Addr) (s : State) : (cpuRead a s).2.prgPristine = s.prgPristine := by
  rcases cpuRead_cases a s with h | ⟨r, hr, h⟩ | h
  · rw [h]
  · rw [h]
    rcases dispatchRead_cases hr with ⟨u, hu, _⟩ | hu | hu | hu <;> rw [hu] <;> rfl
  · rw [h]; rfl

@[simp] theorem cpuRead_fallback (a : Addr) (s : State) : (cpuRead a s).2.fallback = s.fallback := by
  rcases cpuRead_cases a s with h | ⟨r, hr, h⟩ | h
  · rw [h]
  · rw [h]
    rcases dispatchRead_cases hr with ⟨u, hu, _⟩ | hu | hu | hu <;> rw [hu] <;> rfl
  · rw [h]; rfl

@[simp] theorem cpuRead_strobe (a : Addr) (s : State) : (cpuRead a s).2.strobe = s.strobe := by
  rcases cpuRead_cases a s with h | ⟨r, hr, h⟩ | h
  · rw [h]
  · rw [h]
    rcases dispatchRead_cases hr with ⟨u, hu, _⟩ | hu | hu | hu <;> rw [hu] <;> rfl
  · rw [h]; rfl

@[simp] theorem cpuRead_controls (a : Addr) (s : State) : (cpuRead a s).2.controls = s.controls := by
  rcases cpuRead_cases a s with h | ⟨r, hr, h⟩ | h
  · rw [h]
  · rw [h]
    rcases dispatchRead_cases hr with ⟨u, hu, _⟩ | hu | hu | hu <;> rw [hu] <;> rfl
  · rw [h]; rfl

@[simp] theorem cpuRead_restartRequested (a : Addr) (s : State) : (cpuRead a s).2.restartRequested = s.restartRequested := by
  rcases cpuRead_cases a s with h | ⟨r, hr, h⟩ | h
  · rw [h]
  · rw [h]
    rcases dispatchRead_cases hr with ⟨u, hu, _⟩ | hu | hu | hu <;> rw [hu] <;> rfl
  · rw [h]; rfl

@[simp] theorem cpuRead_cfg (a : Addr) (s : State) : (cpuRead a s).2.cfg = s.cfg := by
  rcases cpuRead_cases a s with h | ⟨r, hr, h⟩ | h
  · rw [h]
  · rw [h]
    rcases dispatchRead_cases hr with ⟨u, hu, _⟩ | hu | hu | hu <;> rw [hu] <;> rfl
  · rw [h]; rfl

@[simp] theorem cpuRead_memory (a : Addr) (s : State) (b : Backing) :
    (cpuRead a s).2.memory b = s.memory b := by
  cases b <;> simp [State.memory]

/-- No read changes a byte of memory. -/
@[simp] theorem peek_cpuRead (a b : Addr) (s : State) : peek (cpuRead a s).2 b = peek s b := by
  simp [peek]

@[simp] theorem cpuRead_ppu_pattern0 (a : Addr) (s : State) : (cpuRead a s).2.ppu.pattern0 = s.ppu.pattern0 := by
  rcases cpuRead_cases a s with h | ⟨r, hr, h⟩ | h
  · rw [h]
  · rw [h]
    rcases dispatchRead_cases hr with ⟨u, hu, rfl | rfl⟩ | hu | hu | hu <;> rw [hu] <;>
      simp [Ppu.afterStatusRead, Ppu.readData, readPort0, readPort1]
    split <;> rfl
  · rw [h]; rfl

@[simp] theorem cpuRead_ppu_pattern1 (a : Addr) (s : State) : (cpuRead a s).2.ppu.pattern1 = s.ppu.pattern1 := by
  rcases cpuRead_cases a s with h | ⟨r, hr, h⟩ | h
  · rw [h]
  · rw [h]
    rcases dispatchRead_cases hr with ⟨u, hu, rfl | rfl⟩ | hu | hu | hu <;> rw [hu] <;>
      simp [Ppu.afterStatusRead, Ppu.readData, readPort0, readPort1]
    split <;> rfl
  · rw [h]; rfl

@[simp] theorem cpuRead_ppu_nametable0 (a : Addr) (s : State) : (cpuRead a s).2.ppu.nametable0 = s.ppu.nametable0 := by
  rcases cpuRead_cases a s with h | ⟨r, hr, h⟩ | h
  · rw [h]
  · rw [h]
    rcases dispatchRead_cases hr with ⟨u, hu, rfl | rfl⟩ | hu | hu | hu <;> rw [hu] <;>
      simp [Ppu.afterStatusRead, Ppu.readData, readPort0, readPort1]
    split <;> rfl
  · rw [h]; rfl

@[simp] theorem cpuRead_ppu_nametable1 (a : Addr) (s : State) : (cpuRead a s).2.ppu.nametable1 = s.ppu.nametable1 := by
  rcases cpuRead_cases a s with h | ⟨r, hr, h⟩ | h
  · rw [h]
  · rw [h]
    rcases dispatchRead_cases hr with ⟨u, hu, rfl | rfl⟩ | hu | hu | hu <;> rw [hu] <;>
      simp [Ppu.afterStatusRead, Ppu.readData, readPort0, readPort1]
    split <;> rfl
  · rw [h]; rfl

@[simp] theorem cpuRead_ppu_oam (a : Addr) (s : State) : (cpuRead a s).2.ppu.oam = s.ppu.oam := by
  rcases cpuRead_cases a s with h | ⟨r, hr, h⟩ | h
  · rw [h]
  · rw [h]
    rcases dispatchRead_cases hr with ⟨u, hu, rfl | rfl⟩ | hu | hu | hu <;> rw [hu] <;>
      simp [Ppu.afterStatusRead, Ppu.readData, readPort0, readPort1]
    split <;> rfl
  · rw [h]; rfl

@[simp] theorem cpuRead_ppu_pal (a : Addr) (s : State) : (cpuRead a s).2.ppu.pal = s.ppu.pal := by
  rcases cpuRead_cases a s with h | ⟨r, hr, h⟩ | h
  · rw [h]
  · rw [h]
    rcases dispatchRead_cases hr with ⟨u, hu, rfl | rfl⟩ | hu | hu | hu <;> rw [hu] <;>
      simp [Ppu.afterStatusRead, Ppu.readData, readPort0, readPort1]
    split <;> rfl
  · rw [h]; rfl

@[simp] theorem cpuRead_ppu_ctrl (a : Addr) (s : State) : (cpuRead a s).2.ppu.ctrl = s.ppu.ctrl := by
  rcases cpuRead_cases a s with h | ⟨r, hr, h⟩ | h
  · rw [h]
  · rw [h]
    rcases dispatchRead_cases hr with ⟨u, hu, rfl | rfl⟩ | hu | hu | hu <;> rw [hu] <;>
      simp [Ppu.afterStatusRead, Ppu.readData, readPort0, readPort1]
    split <;> rfl
  · rw [h]; rfl

@[simp] theorem cpuRead_ppu_mask (a : Addr) (s : State) : (cpuRead a s).2.ppu.mask = s.ppu.mask := by
  rcases cpuRead_cases a s with h | ⟨r, hr, h⟩ | h
  · rw [h]
  · rw [h]
    rcases dispatchRead_cases hr with ⟨u, hu, rfl | rfl⟩ | hu | hu | hu <;> rw [hu] <;>
      simp [Ppu.afterStatusRead, Ppu.readData, readPort0, readPort1]
    split <;> rfl
  · rw [h]; rfl

@[simp] theorem cpuRead_ppu_sprite0Hit (a : Addr) (s : State) : (cpuRead a s).2.ppu.sprite0Hit = s.ppu.sprite0Hit := by
  rcases cpuRead_cases a s with h | ⟨r, hr, h⟩ | h
  · rw [h]
  · rw [h]
    rcases dispatchRead_cases hr with ⟨u, hu, rfl | rfl⟩ | hu | hu | hu <;> rw [hu] <;>
      simp [Ppu.afterStatusRead, Ppu.readData, readPort0, readPort1]
    split <;> rfl
  · rw [h]; rfl

@[simp] theorem cpuRead_ppu_overflow (a : Addr) (s : State) : (cpuRead a s).2.ppu.overflow = s.ppu.overflow := by
  rcases cpuRead_cases a s with h | ⟨r, hr, h⟩ | h
  · rw [h]
  · rw [h]
    rcases dispatchRead_cases hr with ⟨u, hu, rfl | rfl⟩ | hu | hu | hu <;> rw [hu] <;>
      simp [Ppu.afterStatusRead, Ppu.readData, readPort0, readPort1]
    split <;> rfl
  · rw [h]; rfl

@[simp] theorem cpuRead_ppu_oamAddr (a : Addr) (s : State) : (cpuRead a s).2.ppu.oamAddr = s.ppu.oamAddr := by
  rcases cpuRead_cases a s with h | ⟨r, hr, h⟩ | h
  · rw [h]
  · rw [h]
    rcases dispatchRead_cases hr with ⟨u, hu, rfl | rfl⟩ | hu | hu | hu <;> rw [hu] <;>
      simp [Ppu.afterStatusRead, Ppu.readData, readPort0, readPort1]
    split <;> rfl
  · rw [h]; rfl

@[simp] theorem cpuRead_ppu_scrollX (a : Addr) (s : State) : (cpuRead a s).2.ppu.scrollX = s.ppu.scrollX := by
  rcases cpuRead_cases a s with h | ⟨r, hr, h⟩ | h
  · rw [h]
  · rw [h]
    rcases dispatchRead_cases hr with ⟨u, hu, rfl | rfl⟩ | hu | hu | hu <;> rw [hu] <;>
      simp [Ppu.afterStatusRead, Ppu.readData, readPort0, readPort1]
    split <;> rfl
  · rw [h]; rfl

@[simp] theorem cpuRead_ppu_scrollY (a : Addr) (s : State) : (cpuRead a s).2.ppu.scrollY = s.ppu.scrollY := by
  rcases cpuRead_cases a s with h | ⟨r, hr, h⟩ | h
  · rw [h]
  · rw [h]
    rcases dispatchRead_cases hr with ⟨u, hu, rfl | rfl⟩ | hu | hu | hu <;> rw [hu] <;>
      simp [Ppu.afterStatusRead, Ppu.readData, readPort0, readPort1]
    split <;> rfl
  · rw [h]; rfl

@[simp] theorem cpuRead_ppu_masterSlave (a : Addr) (s : State) : (cpuRead a s).2.ppu.masterSlave = s.ppu.masterSlave := by
  rcases cpuRead_cases a s with h | ⟨r, hr, h⟩ | h
  · rw [h]
  · rw [h]
    rcases dispatchRead_cases hr with ⟨u, hu, rfl | rfl⟩ | hu | hu | hu <;> rw [hu] <;>
      simp [Ppu.afterStatusRead, Ppu.readData, readPort0, readPort1]
    split <;> rfl
  · rw [h]; rfl

@[simp] theorem cpuRead_ppu_cycle (a : Addr) (s : State) : (cpuRead a s).2.ppu.cycle = s.ppu.cycle := by
  rcases cpuRead_cases a s with h | ⟨r, hr, h⟩ | h
  · rw [h]
  · rw [h]
    rcases dispatchRead_cases hr with ⟨u, hu, rfl | rfl⟩ | hu | hu | hu <;> rw [hu] <;>
      simp [Ppu.afterStatusRead, Ppu.readData, readPort0, readPort1]
    split <;> rfl
  · rw [h]; rfl

@[simp] theorem cpuRead_ppu_scanline (a : Addr) (s : State) : (cpuRead a s).2.ppu.scanline = s.ppu.scanline := by
  rcases cpuRead_cases a s with h | ⟨r, hr, h⟩ | h
  · rw [h]
  · rw [h]
    rcases dispatchRead_cases hr with ⟨u, hu, rfl | rfl⟩ | hu | hu | hu <;> rw [hu] <;>
      simp [Ppu.afterStatusRead, Ppu.readData, readPort0, readPort1]
    split <;> rfl
  · rw [h]; rfl

@[simp] theorem cpuRead_ppu_frameCount (a : Addr) (s : State) : (cpuRead a s).2.ppu.frameCount = s.ppu.frameCount := by
  rcases cpuRead_cases a s with h | ⟨r, hr, h⟩ | h
  · rw [h]
  · rw [h]
    rcases dispatchRead_cases hr with ⟨u, hu, rfl | rfl⟩ | hu | hu | hu <;> rw [hu] <;>
      simp [Ppu.afterStatusRead, Ppu.readData, readPort0, readPort1]
    split <;> rfl
  · rw [h]; rfl

@[simp] theorem cpuRead_ppu_spriteCount (a : Addr) (s : State) : (cpuRead a s).2.ppu.spriteCount = s.ppu.spriteCount := by
  rcases cpuRead_cases a s with h | ⟨r, hr, h⟩ | h
  · rw [h]
  · rw [h]
    rcases dispatchRead_cases hr with ⟨u, hu, rfl | rfl⟩ | hu | hu | hu <;> rw [hu] <;>
      simp [Ppu.afterStatusRead, Ppu.readData, readPort0, readPort1]
    split <;> rfl
  · rw [h]; rfl

@[simp] theorem cpuRead_ppu_work (a : Addr) (s : State) : (cpuRead a s).2.ppu.work = s.ppu.work := by
  rcases cpuRead_cases a s with h | ⟨r, hr, h⟩ | h
  · rw [h]
  · rw [h]
    rcases dispatchRead_cases hr with ⟨u, hu, rfl | rfl⟩ | hu | hu | hu <;> rw [hu] <;>
      simp [Ppu.afterStatusRead, Ppu.readData, readPort0, readPort1]
    split <;> rfl
  · rw [h]; rfl

@[simp] theorem cpuRead_ppu_out (a : Addr) (s : State) : (cpuRead a s).2.ppu.out = s.ppu.out := by
  rcases cpuRead_cases a s with h | ⟨r, hr, h⟩ | h
  · rw [h]
  · rw [h]
    rcases dispatchRead_cases hr with ⟨u, hu, rfl | rfl⟩ | hu | hu | hu <;> rw [hu] <;>
      simp [Ppu.afterStatusRead, Ppu.readData, readPort0, readPort1]
    split <;> rfl
  · rw [h]; rfl

/-- A shift index stays within 0 to 8 (R37). -/
theorem controllerBit_le (st : Bool) (pad : Pad) (i : Nat) (h : i ≤ 8) : (controllerBit st pad i).2 ≤ 8 := by
  simp only [controllerBit]
  split
  · exact h
  · split
    · show i + 1 ≤ 8
      omega
    · exact h

theorem cpuRead_shiftIdx0 (a : Addr) (s : State) (h : s.shiftIdx0 ≤ 8) : (cpuRead a s).2.shiftIdx0 ≤ 8 := by
  rcases cpuRead_cases a s with e | ⟨r, hr, e⟩ | e
  · rw [e]; exact h
  · rw [e]
    rcases dispatchRead_cases hr with ⟨u, hu, _⟩ | hu | hu | hu <;> rw [hu]
    · exact h
    · exact h
    · exact controllerBit_le _ _ _ h
    · exact h
  · rw [e]; exact h

theorem cpuRead_shiftIdx1 (a : Addr) (s : State) (h : s.shiftIdx1 ≤ 8) : (cpuRead a s).2.shiftIdx1 ≤ 8 := by
  rcases cpuRead_cases a s with e | ⟨r, hr, e⟩ | e
  · rw [e]; exact h
  · rw [e]
    rcases dispatchRead_cases hr with ⟨u, hu, _⟩ | hu | hu | hu <;> rw [hu]
    · exact h
    · exact h
    · exact h
    · exact controllerBit_le _ _ _ h
  · rw [e]; exact h

/-! ## OAM DMA and the byte write -/

/-- An induction over the bytes of OAM DMA: what a read keeps and an OAM write keeps, DMA keeps (R380). -/
theorem oamDmaFrom_induct (P : State → Prop)
    (hr : ∀ a t, P t → P (cpuRead a t).2)
    (hw : ∀ i v t, P t → i < 256 → P (t.setPpu { t.ppu with oam := t.ppu.oam.write i v })) :
    ∀ (n i : Nat) (page : Byte) (s : State), i + n ≤ 256 → P s → P (oamDmaFrom n i page s) := by
  intro n
  induction n with
  | zero => intro i page s _ h; exact h
  | succ n ih =>
    intro i page s hi h
    exact ih (i + 1) page _ (by omega) (hw i _ _ (hr _ s h) (by omega))

theorem oamDma_induct (P : State → Prop) (page : Byte) (s : State)
    (hr : ∀ a t, P t → P (cpuRead a t).2)
    (hw : ∀ i v t, P t → i < 256 → P (t.setPpu { t.ppu with oam := t.ppu.oam.write i v }))
    (h : P s) : P (oamDma page s) := by
  unfold oamDma
  exact oamDmaFrom_induct P hr hw 256 0 page s (by omega) h

/-- OAM DMA as a fold over the bytes of the page: each read runs in the state the one before it left (R380). -/
theorem oamDmaFrom_eq_foldl (n i : Nat) (page : Byte) (s : State) :
    oamDmaFrom n i page s = (List.range' i n).foldl (fun u j =>
      let r := cpuRead (BitVec.ofNat 16 (page.toNat * 256 + j)) u
      { r.2 with ppu := { r.2.ppu with oam := r.2.ppu.oam.write j r.1 } }) s := by
  induction n generalizing i s with
  | zero => rfl
  | succ n ih => exact ih ..

/-- Everything a device write can leave (R83). -/
theorem dispatchWrite_cases {m : Nat} {v : Byte} {s t : State} (h : dispatchWrite m v s = some t) :
    (∃ u, t = s.setPpu u ∧
      (u = s.ppu.writeControl v ∨ u = s.ppu.writeMask v ∨ u = s.ppu.writeOamAddr v ∨ u = s.ppu.writeOamData v ∨
       u = s.ppu.writeScroll v ∨ u = s.ppu.writeAddress v ∨ u = s.ppu.writeData s.cfg.mirroring v)) ∨
    t = oamDma v s ∨ t = writeStrobe v s ∨ t = s := by
  simp only [dispatchWrite] at h
  split_ifs at h
  · exact .inl ⟨_, (Option.some.inj h).symm, .inl rfl⟩
  · exact .inl ⟨_, (Option.some.inj h).symm, .inr (.inl rfl)⟩
  · exact .inl ⟨_, (Option.some.inj h).symm, .inr (.inr (.inl rfl))⟩
  · exact .inl ⟨_, (Option.some.inj h).symm, .inr (.inr (.inr (.inl rfl)))⟩
  · exact .inl ⟨_, (Option.some.inj h).symm, .inr (.inr (.inr (.inr (.inl rfl))))⟩
  · exact .inl ⟨_, (Option.some.inj h).symm, .inr (.inr (.inr (.inr (.inr (.inl rfl)))))⟩
  · exact .inl ⟨_, (Option.some.inj h).symm, .inr (.inr (.inr (.inr (.inr (.inr rfl)))))⟩
  · exact .inr (.inl (Option.some.inj h).symm)
  · exact .inr (.inr (.inl (Option.some.inj h).symm))
  · exact .inr (.inr (.inr (Option.some.inj h).symm))

/-- Everything a write can do: nothing, a stored byte, a device write, or a fallback write with its log entry
(R81). -/
theorem cpuWrite_cases (a : Addr) (v : Byte) (s : State) :
    cpuWrite a v s = s ∨
    (mirrorCpu s.cfg a < 0x8000 ∧ cpuWrite a v s = storeCell s (mirrorCpu s.cfg a) v) ∨
    (∃ t, dispatchWrite (mirrorCpu s.cfg a) v s = some t ∧ cpuWrite a v s = t) ∨
    (translateCpu (mirrorCpu s.cfg a) = none ∧ cpuWrite a v s =
      { logAnomaly (mirrorCpu s.cfg a) .write s with
        fallback := s.fallback.write (mirrorCpu s.cfg a) v }) := by
  simp only [cpuWrite]
  split
  · exact .inl rfl
  · split
    · split
      · exact .inr (.inl ⟨by omega, rfl⟩)
      · exact .inl rfl
    · split
      · rename_i t h
        exact .inr (.inr (.inl ⟨t, h, rfl⟩))
      · exact .inr (.inr (.inr ⟨by assumption, rfl⟩))

@[simp] theorem oamDma_a (page : Byte) (s : State) : (oamDma page s).a = s.a :=
  oamDma_induct (fun t => t.a = s.a) page s (fun _ _ h => by simpa using h) (fun _ _ _ h _ => by simpa using h) rfl
@[simp] theorem cpuWrite_a (a : Addr) (v : Byte) (s : State) : (cpuWrite a v s).a = s.a := by
  rcases cpuWrite_cases a v s with h | ⟨_, h⟩ | ⟨t, ht, h⟩ | ⟨_, h⟩
  · rw [h]
  · rw [h]; simp
  · rw [h]
    rcases dispatchWrite_cases ht with ⟨u, hu, _⟩ | hu | hu | hu <;> rw [hu] <;> simp [writeStrobe]
  · rw [h]; rfl

@[simp] theorem oamDma_x (page : Byte) (s : State) : (oamDma page s).x = s.x :=
  oamDma_induct (fun t => t.x = s.x) page s (fun _ _ h => by simpa using h) (fun _ _ _ h _ => by simpa using h) rfl
@[simp] theorem cpuWrite_x (a : Addr) (v : Byte) (s : State) : (cpuWrite a v s).x = s.x := by
  rcases cpuWrite_cases a v s with h | ⟨_, h⟩ | ⟨t, ht, h⟩ | ⟨_, h⟩
  · rw [h]
  · rw [h]; simp
  · rw [h]
    rcases dispatchWrite_cases ht with ⟨u, hu, _⟩ | hu | hu | hu <;> rw [hu] <;> simp [writeStrobe]
  · rw [h]; rfl

@[simp] theorem oamDma_y (page : Byte) (s : State) : (oamDma page s).y = s.y :=
  oamDma_induct (fun t => t.y = s.y) page s (fun _ _ h => by simpa using h) (fun _ _ _ h _ => by simpa using h) rfl
@[simp] theorem cpuWrite_y (a : Addr) (v : Byte) (s : State) : (cpuWrite a v s).y = s.y := by
  rcases cpuWrite_cases a v s with h | ⟨_, h⟩ | ⟨t, ht, h⟩ | ⟨_, h⟩
  · rw [h]
  · rw [h]; simp
  · rw [h]
    rcases dispatchWrite_cases ht with ⟨u, hu, _⟩ | hu | hu | hu <;> rw [hu] <;> simp [writeStrobe]
  · rw [h]; rfl

@[simp] theorem oamDma_sp (page : Byte) (s : State) : (oamDma page s).sp = s.sp :=
  oamDma_induct (fun t => t.sp = s.sp) page s (fun _ _ h => by simpa using h) (fun _ _ _ h _ => by simpa using h) rfl
@[simp] theorem cpuWrite_sp (a : Addr) (v : Byte) (s : State) : (cpuWrite a v s).sp = s.sp := by
  rcases cpuWrite_cases a v s with h | ⟨_, h⟩ | ⟨t, ht, h⟩ | ⟨_, h⟩
  · rw [h]
  · rw [h]; simp
  · rw [h]
    rcases dispatchWrite_cases ht with ⟨u, hu, _⟩ | hu | hu | hu <;> rw [hu] <;> simp [writeStrobe]
  · rw [h]; rfl

@[simp] theorem oamDma_p (page : Byte) (s : State) : (oamDma page s).p = s.p :=
  oamDma_induct (fun t => t.p = s.p) page s (fun _ _ h => by simpa using h) (fun _ _ _ h _ => by simpa using h) rfl
@[simp] theorem cpuWrite_p (a : Addr) (v : Byte) (s : State) : (cpuWrite a v s).p = s.p := by
  rcases cpuWrite_cases a v s with h | ⟨_, h⟩ | ⟨t, ht, h⟩ | ⟨_, h⟩
  · rw [h]
  · rw [h]; simp
  · rw [h]
    rcases dispatchWrite_cases ht with ⟨u, hu, _⟩ | hu | hu | hu <;> rw [hu] <;> simp [writeStrobe]
  · rw [h]; rfl

@[simp] theorem oamDma_pc (page : Byte) (s : State) : (oamDma page s).pc = s.pc :=
  oamDma_induct (fun t => t.pc = s.pc) page s (fun _ _ h => by simpa using h) (fun _ _ _ h _ => by simpa using h) rfl
@[simp] theorem cpuWrite_pc (a : Addr) (v : Byte) (s : State) : (cpuWrite a v s).pc = s.pc := by
  rcases cpuWrite_cases a v s with h | ⟨_, h⟩ | ⟨t, ht, h⟩ | ⟨_, h⟩
  · rw [h]
  · rw [h]; simp
  · rw [h]
    rcases dispatchWrite_cases ht with ⟨u, hu, _⟩ | hu | hu | hu <;> rw [hu] <;> simp [writeStrobe]
  · rw [h]; rfl

@[simp] theorem oamDma_retPc (page : Byte) (s : State) : (oamDma page s).retPc = s.retPc :=
  oamDma_induct (fun t => t.retPc = s.retPc) page s (fun _ _ h => by simpa using h) (fun _ _ _ h _ => by simpa using h) rfl
@[simp] theorem cpuWrite_retPc (a : Addr) (v : Byte) (s : State) : (cpuWrite a v s).retPc = s.retPc := by
  rcases cpuWrite_cases a v s with h | ⟨_, h⟩ | ⟨t, ht, h⟩ | ⟨_, h⟩
  · rw [h]
  · rw [h]; simp
  · rw [h]
    rcases dispatchWrite_cases ht with ⟨u, hu, _⟩ | hu | hu | hu <;> rw [hu] <;> simp [writeStrobe]
  · rw [h]; rfl

@[simp] theorem oamDma_ctx (page : Byte) (s : State) : (oamDma page s).ctx = s.ctx :=
  oamDma_induct (fun t => t.ctx = s.ctx) page s (fun _ _ h => by simpa using h) (fun _ _ _ h _ => by simpa using h) rfl
@[simp] theorem cpuWrite_ctx (a : Addr) (v : Byte) (s : State) : (cpuWrite a v s).ctx = s.ctx := by
  rcases cpuWrite_cases a v s with h | ⟨_, h⟩ | ⟨t, ht, h⟩ | ⟨_, h⟩
  · rw [h]
  · rw [h]; simp
  · rw [h]
    rcases dispatchWrite_cases ht with ⟨u, hu, _⟩ | hu | hu | hu <;> rw [hu] <;> simp [writeStrobe]
  · rw [h]; rfl

@[simp] theorem oamDma_nmiPending (page : Byte) (s : State) : (oamDma page s).nmiPending = s.nmiPending :=
  oamDma_induct (fun t => t.nmiPending = s.nmiPending) page s (fun _ _ h => by simpa using h) (fun _ _ _ h _ => by simpa using h) rfl
@[simp] theorem cpuWrite_nmiPending (a : Addr) (v : Byte) (s : State) : (cpuWrite a v s).nmiPending = s.nmiPending := by
  rcases cpuWrite_cases a v s with h | ⟨_, h⟩ | ⟨t, ht, h⟩ | ⟨_, h⟩
  · rw [h]
  · rw [h]; simp
  · rw [h]
    rcases dispatchWrite_cases ht with ⟨u, hu, _⟩ | hu | hu | hu <;> rw [hu] <;> simp [writeStrobe]
  · rw [h]; rfl

@[simp] theorem oamDma_irqPending (page : Byte) (s : State) : (oamDma page s).irqPending = s.irqPending :=
  oamDma_induct (fun t => t.irqPending = s.irqPending) page s (fun _ _ h => by simpa using h) (fun _ _ _ h _ => by simpa using h) rfl
@[simp] theorem cpuWrite_irqPending (a : Addr) (v : Byte) (s : State) : (cpuWrite a v s).irqPending = s.irqPending := by
  rcases cpuWrite_cases a v s with h | ⟨_, h⟩ | ⟨t, ht, h⟩ | ⟨_, h⟩
  · rw [h]
  · rw [h]; simp
  · rw [h]
    rcases dispatchWrite_cases ht with ⟨u, hu, _⟩ | hu | hu | hu <;> rw [hu] <;> simp [writeStrobe]
  · rw [h]; rfl

@[simp] theorem oamDma_prgPristine (page : Byte) (s : State) : (oamDma page s).prgPristine = s.prgPristine :=
  oamDma_induct (fun t => t.prgPristine = s.prgPristine) page s (fun _ _ h => by simpa using h) (fun _ _ _ h _ => by simpa using h) rfl
@[simp] theorem cpuWrite_prgPristine (a : Addr) (v : Byte) (s : State) : (cpuWrite a v s).prgPristine = s.prgPristine := by
  rcases cpuWrite_cases a v s with h | ⟨_, h⟩ | ⟨t, ht, h⟩ | ⟨_, h⟩
  · rw [h]
  · rw [h]; simp
  · rw [h]
    rcases dispatchWrite_cases ht with ⟨u, hu, _⟩ | hu | hu | hu <;> rw [hu] <;> simp [writeStrobe]
  · rw [h]; rfl

@[simp] theorem oamDma_controls (page : Byte) (s : State) : (oamDma page s).controls = s.controls :=
  oamDma_induct (fun t => t.controls = s.controls) page s (fun _ _ h => by simpa using h) (fun _ _ _ h _ => by simpa using h) rfl
@[simp] theorem cpuWrite_controls (a : Addr) (v : Byte) (s : State) : (cpuWrite a v s).controls = s.controls := by
  rcases cpuWrite_cases a v s with h | ⟨_, h⟩ | ⟨t, ht, h⟩ | ⟨_, h⟩
  · rw [h]
  · rw [h]; simp
  · rw [h]
    rcases dispatchWrite_cases ht with ⟨u, hu, _⟩ | hu | hu | hu <;> rw [hu] <;> simp [writeStrobe]
  · rw [h]; rfl

@[simp] theorem oamDma_restartRequested (page : Byte) (s : State) : (oamDma page s).restartRequested = s.restartRequested :=
  oamDma_induct (fun t => t.restartRequested = s.restartRequested) page s (fun _ _ h => by simpa using h) (fun _ _ _ h _ => by simpa using h) rfl
@[simp] theorem cpuWrite_restartRequested (a : Addr) (v : Byte) (s : State) : (cpuWrite a v s).restartRequested = s.restartRequested := by
  rcases cpuWrite_cases a v s with h | ⟨_, h⟩ | ⟨t, ht, h⟩ | ⟨_, h⟩
  · rw [h]
  · rw [h]; simp
  · rw [h]
    rcases dispatchWrite_cases ht with ⟨u, hu, _⟩ | hu | hu | hu <;> rw [hu] <;> simp [writeStrobe]
  · rw [h]; rfl

@[simp] theorem oamDma_cfg (page : Byte) (s : State) : (oamDma page s).cfg = s.cfg :=
  oamDma_induct (fun t => t.cfg = s.cfg) page s (fun _ _ h => by simpa using h) (fun _ _ _ h _ => by simpa using h) rfl
@[simp] theorem cpuWrite_cfg (a : Addr) (v : Byte) (s : State) : (cpuWrite a v s).cfg = s.cfg := by
  rcases cpuWrite_cases a v s with h | ⟨_, h⟩ | ⟨t, ht, h⟩ | ⟨_, h⟩
  · rw [h]
  · rw [h]; simp
  · rw [h]
    rcases dispatchWrite_cases ht with ⟨u, hu, _⟩ | hu | hu | hu <;> rw [hu] <;> simp [writeStrobe]
  · rw [h]; rfl

/-- OAM DMA changes no array of the processor space. -/
@[simp] theorem oamDma_memory (page : Byte) (s : State) (b : Backing) : (oamDma page s).memory b = s.memory b :=
  oamDma_induct (fun t => t.memory b = s.memory b) page s (fun _ _ h => by simpa using h) (fun _ _ _ h _ => by simpa using h) rfl

/-- A device write changes no array of the processor space. -/
theorem dispatchWrite_memory {m : Nat} {v : Byte} {s t : State} (h : dispatchWrite m v s = some t)
    (b : Backing) : t.memory b = s.memory b := by
  rcases dispatchWrite_cases h with ⟨u, hu, _⟩ | hu | hu | hu <;> rw [hu]
  · simp
  · simp
  · cases b <;> rfl

/-- No write changes program storage (R75). -/
@[simp] theorem cpuWrite_prg (a : Addr) (v : Byte) (s : State) : (cpuWrite a v s).prg = s.prg := by
  rcases cpuWrite_cases a v s with h | ⟨hm, h⟩ | ⟨t, ht, h⟩ | ⟨_, h⟩
  · rw [h]
  · have hb : (cellOf (mirrorCpu s.cfg a)).1 ≠ .prg := by
      rw [cellOf_eq]
      repeat' split
      all_goals simp_all
    have := State.memory_setMemory s (cellOf (mirrorCpu s.cfg a)).1 .prg
      ((s.memory (cellOf (mirrorCpu s.cfg a)).1).write (cellOf (mirrorCpu s.cfg a)).2 v)
    rw [if_neg (Ne.symm hb)] at this
    rw [h]
    exact this
  · rw [h]
    exact dispatchWrite_memory ht .prg
  · rw [h]; rfl

/-- A write changes no byte of memory but the one at its own mirrored address. -/
theorem peek_cpuWrite_other (a b : Addr) (v : Byte) (s : State) (hwf : ∀ c, (s.memory c).wf)
    (h : mirrorCpu s.cfg b ≠ mirrorCpu s.cfg a) : peek (cpuWrite a v s) b = peek s b := by
  rcases cpuWrite_cases a v s with e | ⟨_, e⟩ | ⟨t, ht, e⟩ | ⟨hn, e⟩
  · rw [e]
  · rw [e, peek_storeCell _ _ _ _ (hwf _), if_neg h]
  · have hc : t.cfg = s.cfg := by rw [← e]; simp
    rw [e]
    exact peek_congr s t (fun c => dispatchWrite_memory ht c) hc b
  · have hcell : cellOf (mirrorCpu s.cfg a) = (.fallback, mirrorCpu s.cfg a) := by simp [cellOf, hn]
    have e' : cpuWrite a v s = storeCell (logAnomaly (mirrorCpu s.cfg a) .write s) (mirrorCpu s.cfg a) v := by
      rw [e]
      simp only [storeCell, hcell]
      rfl
    rw [e', peek_storeCell _ _ _ _ (by simpa using hwf _), logAnomaly_cfg, if_neg h]
    simp [peek]

/-- A write to RAM or save RAM stores its byte. -/
theorem cpuWrite_writable (a : Addr) (v : Byte) (s : State)
    (h : mirrorCpu s.cfg a < 0x800 ∨ 0x6000 ≤ mirrorCpu s.cfg a ∧ mirrorCpu s.cfg a < 0x8000) :
    cpuWrite a v s = storeCell s (mirrorCpu s.cfg a) v := by
  have : ∃ r, translateCpu (mirrorCpu s.cfg a) = some r ∧ r.writable = true := by
    rw [translateCpu_eq]
    split_ifs <;> first | exact ⟨_, rfl, rfl⟩ | omega
  obtain ⟨r, h1, h2⟩ := this
  simp only [cpuWrite, h1, h2, if_neg (show ¬ 0x8000 ≤ mirrorCpu s.cfg a by omega)]
  rfl

/-! ## What a write leaves of the PPU as it was -/

@[simp] theorem oamDma_ppu_cycle (page : Byte) (s : State) : (oamDma page s).ppu.cycle = s.ppu.cycle :=
  oamDma_induct (fun t => t.ppu.cycle = s.ppu.cycle) page s (fun _ _ h => by simpa using h) (fun _ _ _ h _ => by simpa using h) rfl
@[simp] theorem cpuWrite_ppu_cycle (a : Addr) (v : Byte) (s : State) : (cpuWrite a v s).ppu.cycle = s.ppu.cycle := by
  rcases cpuWrite_cases a v s with h | ⟨_, h⟩ | ⟨t, ht, h⟩ | ⟨_, h⟩
  · rw [h]
  · rw [h]; simp
  · rw [h]
    rcases dispatchWrite_cases ht with ⟨u, rfl, hu⟩ | hu | hu | hu
    · rcases hu with rfl | rfl | rfl | rfl | rfl | rfl | rfl
      all_goals simp only [State.setPpu_ppu, Ppu.writeControl, Ppu.writeMask, Ppu.writeOamAddr, Ppu.writeOamData, Ppu.writeScroll,
        Ppu.writeAddress, Ppu.writeData, ppuWrite, Ppu.setMemory]
      all_goals split <;> rfl
    · rw [hu]; simp
    · rw [hu]; rfl
    · rw [hu]
  · rw [h]; rfl

@[simp] theorem oamDma_ppu_scanline (page : Byte) (s : State) : (oamDma page s).ppu.scanline = s.ppu.scanline :=
  oamDma_induct (fun t => t.ppu.scanline = s.ppu.scanline) page s (fun _ _ h => by simpa using h) (fun _ _ _ h _ => by simpa using h) rfl
@[simp] theorem cpuWrite_ppu_scanline (a : Addr) (v : Byte) (s : State) : (cpuWrite a v s).ppu.scanline = s.ppu.scanline := by
  rcases cpuWrite_cases a v s with h | ⟨_, h⟩ | ⟨t, ht, h⟩ | ⟨_, h⟩
  · rw [h]
  · rw [h]; simp
  · rw [h]
    rcases dispatchWrite_cases ht with ⟨u, rfl, hu⟩ | hu | hu | hu
    · rcases hu with rfl | rfl | rfl | rfl | rfl | rfl | rfl
      all_goals simp only [State.setPpu_ppu, Ppu.writeControl, Ppu.writeMask, Ppu.writeOamAddr, Ppu.writeOamData, Ppu.writeScroll,
        Ppu.writeAddress, Ppu.writeData, ppuWrite, Ppu.setMemory]
      all_goals split <;> rfl
    · rw [hu]; simp
    · rw [hu]; rfl
    · rw [hu]
  · rw [h]; rfl

@[simp] theorem oamDma_ppu_frameCount (page : Byte) (s : State) : (oamDma page s).ppu.frameCount = s.ppu.frameCount :=
  oamDma_induct (fun t => t.ppu.frameCount = s.ppu.frameCount) page s (fun _ _ h => by simpa using h) (fun _ _ _ h _ => by simpa using h) rfl
@[simp] theorem cpuWrite_ppu_frameCount (a : Addr) (v : Byte) (s : State) : (cpuWrite a v s).ppu.frameCount = s.ppu.frameCount := by
  rcases cpuWrite_cases a v s with h | ⟨_, h⟩ | ⟨t, ht, h⟩ | ⟨_, h⟩
  · rw [h]
  · rw [h]; simp
  · rw [h]
    rcases dispatchWrite_cases ht with ⟨u, rfl, hu⟩ | hu | hu | hu
    · rcases hu with rfl | rfl | rfl | rfl | rfl | rfl | rfl
      all_goals simp only [State.setPpu_ppu, Ppu.writeControl, Ppu.writeMask, Ppu.writeOamAddr, Ppu.writeOamData, Ppu.writeScroll,
        Ppu.writeAddress, Ppu.writeData, ppuWrite, Ppu.setMemory]
      all_goals split <;> rfl
    · rw [hu]; simp
    · rw [hu]; rfl
    · rw [hu]
  · rw [h]; rfl

@[simp] theorem oamDma_ppu_spriteCount (page : Byte) (s : State) : (oamDma page s).ppu.spriteCount = s.ppu.spriteCount :=
  oamDma_induct (fun t => t.ppu.spriteCount = s.ppu.spriteCount) page s (fun _ _ h => by simpa using h) (fun _ _ _ h _ => by simpa using h) rfl
@[simp] theorem cpuWrite_ppu_spriteCount (a : Addr) (v : Byte) (s : State) : (cpuWrite a v s).ppu.spriteCount = s.ppu.spriteCount := by
  rcases cpuWrite_cases a v s with h | ⟨_, h⟩ | ⟨t, ht, h⟩ | ⟨_, h⟩
  · rw [h]
  · rw [h]; simp
  · rw [h]
    rcases dispatchWrite_cases ht with ⟨u, rfl, hu⟩ | hu | hu | hu
    · rcases hu with rfl | rfl | rfl | rfl | rfl | rfl | rfl
      all_goals simp only [State.setPpu_ppu, Ppu.writeControl, Ppu.writeMask, Ppu.writeOamAddr, Ppu.writeOamData, Ppu.writeScroll,
        Ppu.writeAddress, Ppu.writeData, ppuWrite, Ppu.setMemory]
      all_goals split <;> rfl
    · rw [hu]; simp
    · rw [hu]; rfl
    · rw [hu]
  · rw [h]; rfl

@[simp] theorem oamDma_ppu_sprite0Hit (page : Byte) (s : State) : (oamDma page s).ppu.sprite0Hit = s.ppu.sprite0Hit :=
  oamDma_induct (fun t => t.ppu.sprite0Hit = s.ppu.sprite0Hit) page s (fun _ _ h => by simpa using h) (fun _ _ _ h _ => by simpa using h) rfl
@[simp] theorem cpuWrite_ppu_sprite0Hit (a : Addr) (v : Byte) (s : State) : (cpuWrite a v s).ppu.sprite0Hit = s.ppu.sprite0Hit := by
  rcases cpuWrite_cases a v s with h | ⟨_, h⟩ | ⟨t, ht, h⟩ | ⟨_, h⟩
  · rw [h]
  · rw [h]; simp
  · rw [h]
    rcases dispatchWrite_cases ht with ⟨u, rfl, hu⟩ | hu | hu | hu
    · rcases hu with rfl | rfl | rfl | rfl | rfl | rfl | rfl
      all_goals simp only [State.setPpu_ppu, Ppu.writeControl, Ppu.writeMask, Ppu.writeOamAddr, Ppu.writeOamData, Ppu.writeScroll,
        Ppu.writeAddress, Ppu.writeData, ppuWrite, Ppu.setMemory]
      all_goals split <;> rfl
    · rw [hu]; simp
    · rw [hu]; rfl
    · rw [hu]
  · rw [h]; rfl

@[simp] theorem oamDma_ppu_overflow (page : Byte) (s : State) : (oamDma page s).ppu.overflow = s.ppu.overflow :=
  oamDma_induct (fun t => t.ppu.overflow = s.ppu.overflow) page s (fun _ _ h => by simpa using h) (fun _ _ _ h _ => by simpa using h) rfl
@[simp] theorem cpuWrite_ppu_overflow (a : Addr) (v : Byte) (s : State) : (cpuWrite a v s).ppu.overflow = s.ppu.overflow := by
  rcases cpuWrite_cases a v s with h | ⟨_, h⟩ | ⟨t, ht, h⟩ | ⟨_, h⟩
  · rw [h]
  · rw [h]; simp
  · rw [h]
    rcases dispatchWrite_cases ht with ⟨u, rfl, hu⟩ | hu | hu | hu
    · rcases hu with rfl | rfl | rfl | rfl | rfl | rfl | rfl
      all_goals simp only [State.setPpu_ppu, Ppu.writeControl, Ppu.writeMask, Ppu.writeOamAddr, Ppu.writeOamData, Ppu.writeScroll,
        Ppu.writeAddress, Ppu.writeData, ppuWrite, Ppu.setMemory]
      all_goals split <;> rfl
    · rw [hu]; simp
    · rw [hu]; rfl
    · rw [hu]
  · rw [h]; rfl

@[simp] theorem oamDma_ppu_work (page : Byte) (s : State) : (oamDma page s).ppu.work = s.ppu.work :=
  oamDma_induct (fun t => t.ppu.work = s.ppu.work) page s (fun _ _ h => by simpa using h) (fun _ _ _ h _ => by simpa using h) rfl
@[simp] theorem cpuWrite_ppu_work (a : Addr) (v : Byte) (s : State) : (cpuWrite a v s).ppu.work = s.ppu.work := by
  rcases cpuWrite_cases a v s with h | ⟨_, h⟩ | ⟨t, ht, h⟩ | ⟨_, h⟩
  · rw [h]
  · rw [h]; simp
  · rw [h]
    rcases dispatchWrite_cases ht with ⟨u, rfl, hu⟩ | hu | hu | hu
    · rcases hu with rfl | rfl | rfl | rfl | rfl | rfl | rfl
      all_goals simp only [State.setPpu_ppu, Ppu.writeControl, Ppu.writeMask, Ppu.writeOamAddr, Ppu.writeOamData, Ppu.writeScroll,
        Ppu.writeAddress, Ppu.writeData, ppuWrite, Ppu.setMemory]
      all_goals split <;> rfl
    · rw [hu]; simp
    · rw [hu]; rfl
    · rw [hu]
  · rw [h]; rfl

@[simp] theorem oamDma_ppu_out (page : Byte) (s : State) : (oamDma page s).ppu.out = s.ppu.out :=
  oamDma_induct (fun t => t.ppu.out = s.ppu.out) page s (fun _ _ h => by simpa using h) (fun _ _ _ h _ => by simpa using h) rfl
@[simp] theorem cpuWrite_ppu_out (a : Addr) (v : Byte) (s : State) : (cpuWrite a v s).ppu.out = s.ppu.out := by
  rcases cpuWrite_cases a v s with h | ⟨_, h⟩ | ⟨t, ht, h⟩ | ⟨_, h⟩
  · rw [h]
  · rw [h]; simp
  · rw [h]
    rcases dispatchWrite_cases ht with ⟨u, rfl, hu⟩ | hu | hu | hu
    · rcases hu with rfl | rfl | rfl | rfl | rfl | rfl | rfl
      all_goals simp only [State.setPpu_ppu, Ppu.writeControl, Ppu.writeMask, Ppu.writeOamAddr, Ppu.writeOamData, Ppu.writeScroll,
        Ppu.writeAddress, Ppu.writeData, ppuWrite, Ppu.setMemory]
      all_goals split <;> rfl
    · rw [hu]; simp
    · rw [hu]; rfl
    · rw [hu]
  · rw [h]; rfl

/-! ## The stack -/

theorem stackAddr_toNat (sp : Byte) : (stackAddr sp).toNat = 0x100 + sp.toNat := by
  have := sp.isLt
  simp only [stackAddr, word16, BitVec.toNat_append]
  rw [Nat.shiftLeft_eq]
  have e : (0x01#8).toNat * 2 ^ 8 ||| sp.toNat = (0x01#8).toNat * 2 ^ 8 + sp.toNat := by
    rw [Nat.mul_comm]
    exact (Nat.two_pow_add_eq_or_of_lt this 1).symm
  rw [e]
  rfl

/-- `Push(v)` always lands in `stk[SP]` (R280). -/
theorem push_eq (v : Byte) (s : State) :
    push v s = { s with stk := s.stk.write s.sp.toNat v, sp := s.sp - 1 } := by
  have h := s.sp.isLt
  have hm : mirrorCpu s.cfg (stackAddr s.sp) = 0x100 + s.sp.toNat := by
    rw [mirrorCpu_low _ _ (by rw [stackAddr_toNat]; omega), stackAddr_toNat]
    omega
  have ht : translateCpu (0x100 + s.sp.toNat) = some ⟨0x0100, 0x0200, .stk, true⟩ := by
    rw [translateCpu_eq, if_neg (by omega), if_pos (by omega)]
  have hc : cellOf (0x100 + s.sp.toNat) = (.stk, s.sp.toNat) := by
    rw [cellOf_eq, if_neg (by omega), if_pos (by omega)]
    simp
  simp only [push, cpuWrite, hm, ht, if_neg (by omega : ¬ 0x8000 ≤ 0x100 + s.sp.toNat), storeCell, hc]
  rfl

/-- `Pull()` always reads `stk[SP + 1]` (R281). -/
theorem pull_eq (s : State) : pull s = (s.stk.read (s.sp + 1).toNat, { s with sp := s.sp + 1 }) := by
  have h := (s.sp + 1).isLt
  have hm : mirrorCpu s.cfg (stackAddr (s.sp + 1)) = 0x100 + (s.sp + 1).toNat := by
    rw [mirrorCpu_low _ _ (by rw [stackAddr_toNat]; omega), stackAddr_toNat]
    omega
  have hc : cellOf (0x100 + (s.sp + 1).toNat) = (.stk, (s.sp + 1).toNat) := by
    rw [cellOf_eq, if_neg (by omega), if_pos (by omega)]
    simp
  rw [pull, cpuRead_low _ _ (by rw [stackAddr_toNat]; omega)]
  simp only [peek, State.setSp_cfg, hm, hc]
  rfl

/-- A PPU-space read after a write: the written byte where both resolve to one cell, else as before (R106). -/
theorem ppuRead_ppuWrite (u : Ppu) (mir : Mirroring) (a b : Addr) (v : Byte)
    (hw : (u.memory (ppuCell mir (mirrorPpu a)).1).wf) :
    ppuRead mir (ppuWrite mir u a v) b =
      if ppuCell mir (mirrorPpu b) = ppuCell mir (mirrorPpu a) then v else ppuRead mir u b := by
  simp only [ppuRead, ppuWrite, PpuMemory.memory_setMemory]
  split_ifs with h1 h2 h2
  · rw [h2, Memory.read_write_same _ hw]
  · rw [Memory.read_write _ hw, if_neg (fun h => h2 (Prod.ext h1 h)), h1]
  · exact absurd (congrArg Prod.fst h2) h1
  · rfl

end Sys2Proof.Machine
end

