-- ==== Sys2Proof/Laws/Operands.lean ====
section
/-! SUPPORT. What evaluating `Operand()` and the place of a shift leaves as it was. -/

namespace Sys2Proof.Machine

@[simp] theorem readSource_a (o : Source) (s : State) : (readSource o s).2.a = s.a := by
  cases o <;> simp [readSource]
@[simp] theorem readSource_x (o : Source) (s : State) : (readSource o s).2.x = s.x := by
  cases o <;> simp [readSource]
@[simp] theorem readSource_y (o : Source) (s : State) : (readSource o s).2.y = s.y := by
  cases o <;> simp [readSource]
@[simp] theorem readSource_sp (o : Source) (s : State) : (readSource o s).2.sp = s.sp := by
  cases o <;> simp [readSource]
@[simp] theorem readSource_p (o : Source) (s : State) : (readSource o s).2.p = s.p := by
  cases o <;> simp [readSource]
@[simp] theorem readSource_pc (o : Source) (s : State) : (readSource o s).2.pc = s.pc := by
  cases o <;> simp [readSource]
@[simp] theorem readSource_retPc (o : Source) (s : State) : (readSource o s).2.retPc = s.retPc := by
  cases o <;> simp [readSource]
@[simp] theorem readSource_ctx (o : Source) (s : State) : (readSource o s).2.ctx = s.ctx := by
  cases o <;> simp [readSource]
@[simp] theorem readSource_nmiPending (o : Source) (s : State) : (readSource o s).2.nmiPending = s.nmiPending := by
  cases o <;> simp [readSource]
@[simp] theorem readSource_irqPending (o : Source) (s : State) : (readSource o s).2.irqPending = s.irqPending := by
  cases o <;> simp [readSource]
@[simp] theorem readSource_prg (o : Source) (s : State) : (readSource o s).2.prg = s.prg := by
  cases o <;> simp [readSource]
@[simp] theorem readSource_prgPristine (o : Source) (s : State) : (readSource o s).2.prgPristine = s.prgPristine := by
  cases o <;> simp [readSource]
@[simp] theorem readSource_controls (o : Source) (s : State) : (readSource o s).2.controls = s.controls := by
  cases o <;> simp [readSource]
@[simp] theorem readSource_restartRequested (o : Source) (s : State) : (readSource o s).2.restartRequested = s.restartRequested := by
  cases o <;> simp [readSource]
@[simp] theorem readSource_cfg (o : Source) (s : State) : (readSource o s).2.cfg = s.cfg := by
  cases o <;> simp [readSource]
@[simp] theorem readSource_ppu_pattern0 (o : Source) (s : State) : (readSource o s).2.ppu.pattern0 = s.ppu.pattern0 := by
  cases o <;> simp [readSource]
@[simp] theorem readSource_ppu_pattern1 (o : Source) (s : State) : (readSource o s).2.ppu.pattern1 = s.ppu.pattern1 := by
  cases o <;> simp [readSource]
@[simp] theorem readSource_ppu_nametable0 (o : Source) (s : State) : (readSource o s).2.ppu.nametable0 = s.ppu.nametable0 := by
  cases o <;> simp [readSource]
@[simp] theorem readSource_ppu_nametable1 (o : Source) (s : State) : (readSource o s).2.ppu.nametable1 = s.ppu.nametable1 := by
  cases o <;> simp [readSource]
@[simp] theorem readSource_ppu_oam (o : Source) (s : State) : (readSource o s).2.ppu.oam = s.ppu.oam := by
  cases o <;> simp [readSource]
@[simp] theorem readSource_ppu_pal (o : Source) (s : State) : (readSource o s).2.ppu.pal = s.ppu.pal := by
  cases o <;> simp [readSource]
@[simp] theorem readSource_ppu_ctrl (o : Source) (s : State) : (readSource o s).2.ppu.ctrl = s.ppu.ctrl := by
  cases o <;> simp [readSource]
@[simp] theorem readSource_ppu_mask (o : Source) (s : State) : (readSource o s).2.ppu.mask = s.ppu.mask := by
  cases o <;> simp [readSource]
@[simp] theorem readSource_ppu_sprite0Hit (o : Source) (s : State) : (readSource o s).2.ppu.sprite0Hit = s.ppu.sprite0Hit := by
  cases o <;> simp [readSource]
@[simp] theorem readSource_ppu_overflow (o : Source) (s : State) : (readSource o s).2.ppu.overflow = s.ppu.overflow := by
  cases o <;> simp [readSource]
@[simp] theorem readSource_ppu_oamAddr (o : Source) (s : State) : (readSource o s).2.ppu.oamAddr = s.ppu.oamAddr := by
  cases o <;> simp [readSource]
@[simp] theorem readSource_ppu_scrollX (o : Source) (s : State) : (readSource o s).2.ppu.scrollX = s.ppu.scrollX := by
  cases o <;> simp [readSource]
@[simp] theorem readSource_ppu_scrollY (o : Source) (s : State) : (readSource o s).2.ppu.scrollY = s.ppu.scrollY := by
  cases o <;> simp [readSource]
@[simp] theorem readSource_ppu_masterSlave (o : Source) (s : State) : (readSource o s).2.ppu.masterSlave = s.ppu.masterSlave := by
  cases o <;> simp [readSource]
@[simp] theorem readSource_ppu_cycle (o : Source) (s : State) : (readSource o s).2.ppu.cycle = s.ppu.cycle := by
  cases o <;> simp [readSource]
@[simp] theorem readSource_ppu_scanline (o : Source) (s : State) : (readSource o s).2.ppu.scanline = s.ppu.scanline := by
  cases o <;> simp [readSource]
@[simp] theorem readSource_ppu_frameCount (o : Source) (s : State) : (readSource o s).2.ppu.frameCount = s.ppu.frameCount := by
  cases o <;> simp [readSource]
@[simp] theorem readSource_ppu_spriteCount (o : Source) (s : State) : (readSource o s).2.ppu.spriteCount = s.ppu.spriteCount := by
  cases o <;> simp [readSource]
@[simp] theorem readSource_ppu_work (o : Source) (s : State) : (readSource o s).2.ppu.work = s.ppu.work := by
  cases o <;> simp [readSource]
@[simp] theorem readSource_ppu_out (o : Source) (s : State) : (readSource o s).2.ppu.out = s.ppu.out := by
  cases o <;> simp [readSource]
@[simp] theorem readSource_memory (o : Source) (s : State) (b : Backing) :
    (readSource o s).2.memory b = s.memory b := by
  cases o <;> simp [readSource]
@[simp] theorem peek_readSource (o : Source) (s : State) (a : Addr) : peek (readSource o s).2 a = peek s a := by
  cases o <;> simp [readSource]

@[simp] theorem readPlace_a (l : Place) (s : State) : (readPlace l s).2.a = s.a := by
  cases l <;> simp [readPlace]
@[simp] theorem readPlace_x (l : Place) (s : State) : (readPlace l s).2.x = s.x := by
  cases l <;> simp [readPlace]
@[simp] theorem readPlace_y (l : Place) (s : State) : (readPlace l s).2.y = s.y := by
  cases l <;> simp [readPlace]
@[simp] theorem readPlace_sp (l : Place) (s : State) : (readPlace l s).2.sp = s.sp := by
  cases l <;> simp [readPlace]
@[simp] theorem readPlace_p (l : Place) (s : State) : (readPlace l s).2.p = s.p := by
  cases l <;> simp [readPlace]
@[simp] theorem readPlace_pc (l : Place) (s : State) : (readPlace l s).2.pc = s.pc := by
  cases l <;> simp [readPlace]
@[simp] theorem readPlace_retPc (l : Place) (s : State) : (readPlace l s).2.retPc = s.retPc := by
  cases l <;> simp [readPlace]
@[simp] theorem readPlace_ctx (l : Place) (s : State) : (readPlace l s).2.ctx = s.ctx := by
  cases l <;> simp [readPlace]
@[simp] theorem readPlace_nmiPending (l : Place) (s : State) : (readPlace l s).2.nmiPending = s.nmiPending := by
  cases l <;> simp [readPlace]
@[simp] theorem readPlace_irqPending (l : Place) (s : State) : (readPlace l s).2.irqPending = s.irqPending := by
  cases l <;> simp [readPlace]
@[simp] theorem readPlace_prg (l : Place) (s : State) : (readPlace l s).2.prg = s.prg := by
  cases l <;> simp [readPlace]
@[simp] theorem readPlace_prgPristine (l : Place) (s : State) : (readPlace l s).2.prgPristine = s.prgPristine := by
  cases l <;> simp [readPlace]
@[simp] theorem readPlace_controls (l : Place) (s : State) : (readPlace l s).2.controls = s.controls := by
  cases l <;> simp [readPlace]
@[simp] theorem readPlace_restartRequested (l : Place) (s : State) : (readPlace l s).2.restartRequested = s.restartRequested := by
  cases l <;> simp [readPlace]
@[simp] theorem readPlace_cfg (l : Place) (s : State) : (readPlace l s).2.cfg = s.cfg := by
  cases l <;> simp [readPlace]
@[simp] theorem writePlace_x (l : Place) (v : Byte) (s : State) : (writePlace l v s).x = s.x := by
  cases l <;> simp [writePlace]
@[simp] theorem writePlace_y (l : Place) (v : Byte) (s : State) : (writePlace l v s).y = s.y := by
  cases l <;> simp [writePlace]
@[simp] theorem writePlace_sp (l : Place) (v : Byte) (s : State) : (writePlace l v s).sp = s.sp := by
  cases l <;> simp [writePlace]
@[simp] theorem writePlace_p (l : Place) (v : Byte) (s : State) : (writePlace l v s).p = s.p := by
  cases l <;> simp [writePlace]
@[simp] theorem writePlace_pc (l : Place) (v : Byte) (s : State) : (writePlace l v s).pc = s.pc := by
  cases l <;> simp [writePlace]
@[simp] theorem writePlace_retPc (l : Place) (v : Byte) (s : State) : (writePlace l v s).retPc = s.retPc := by
  cases l <;> simp [writePlace]
@[simp] theorem writePlace_ctx (l : Place) (v : Byte) (s : State) : (writePlace l v s).ctx = s.ctx := by
  cases l <;> simp [writePlace]
@[simp] theorem writePlace_nmiPending (l : Place) (v : Byte) (s : State) : (writePlace l v s).nmiPending = s.nmiPending := by
  cases l <;> simp [writePlace]
@[simp] theorem writePlace_irqPending (l : Place) (v : Byte) (s : State) : (writePlace l v s).irqPending = s.irqPending := by
  cases l <;> simp [writePlace]
@[simp] theorem writePlace_prg (l : Place) (v : Byte) (s : State) : (writePlace l v s).prg = s.prg := by
  cases l <;> simp [writePlace]
@[simp] theorem writePlace_prgPristine (l : Place) (v : Byte) (s : State) : (writePlace l v s).prgPristine = s.prgPristine := by
  cases l <;> simp [writePlace]
@[simp] theorem writePlace_controls (l : Place) (v : Byte) (s : State) : (writePlace l v s).controls = s.controls := by
  cases l <;> simp [writePlace]
@[simp] theorem writePlace_restartRequested (l : Place) (v : Byte) (s : State) : (writePlace l v s).restartRequested = s.restartRequested := by
  cases l <;> simp [writePlace]
@[simp] theorem writePlace_cfg (l : Place) (v : Byte) (s : State) : (writePlace l v s).cfg = s.cfg := by
  cases l <;> simp [writePlace]
@[simp] theorem writePlace_mem_a (ea : Addr) (v : Byte) (s : State) : (writePlace (.mem ea) v s).a = s.a := by
  simp [writePlace]
@[simp] theorem peek_writePlace_acc (v : Byte) (s : State) (a : Addr) : peek (writePlace .acc v s) a = peek s a := by
  simp [writePlace]
@[simp] theorem peek_readPlace (l : Place) (s : State) (a : Addr) : peek (readPlace l s).2 a = peek s a := by
  cases l <;> simp [readPlace]

/-- The byte at an address of page zero. -/
theorem peek_zeroPage (s : State) (z : Byte) : peek s (zeroPage z) = s.zp.read z.toNat := by
  have h : (zeroPage z).toNat = z.toNat := by simp [zeroPage, word16_toNat]
  have := z.isLt
  simp only [peek]
  rw [mirrorCpu_low _ _ (by omega), h, Nat.mod_eq_of_lt (by omega), cellOf_eq, if_pos (by omega)]
  rfl

end Sys2Proof.Machine
end

