-- ==== Sys2Proof/Laws/Ppu.lean ====
section
/-! SUPPORT. How the PPU advances, field by field: what a PPU cycle can change is the counters, the flags, the sprite
count, the two frame buffers and the NMI request; and the two cases of a PPU cycle. -/

namespace Sys2Proof.Machine

@[simp] theorem renderScanline_a (y : Nat) (s : State) : (renderScanline y s).a = s.a := rfl
@[simp] theorem renderScanline_x (y : Nat) (s : State) : (renderScanline y s).x = s.x := rfl
@[simp] theorem renderScanline_y (y : Nat) (s : State) : (renderScanline y s).y = s.y := rfl
@[simp] theorem renderScanline_sp (y : Nat) (s : State) : (renderScanline y s).sp = s.sp := rfl
@[simp] theorem renderScanline_p (y : Nat) (s : State) : (renderScanline y s).p = s.p := rfl
@[simp] theorem renderScanline_pc (y : Nat) (s : State) : (renderScanline y s).pc = s.pc := rfl
@[simp] theorem renderScanline_retPc (y : Nat) (s : State) : (renderScanline y s).retPc = s.retPc := rfl
@[simp] theorem renderScanline_ctx (y : Nat) (s : State) : (renderScanline y s).ctx = s.ctx := rfl
@[simp] theorem renderScanline_irqPending (y : Nat) (s : State) : (renderScanline y s).irqPending = s.irqPending := rfl
@[simp] theorem renderScanline_zp (y : Nat) (s : State) : (renderScanline y s).zp = s.zp := rfl
@[simp] theorem renderScanline_stk (y : Nat) (s : State) : (renderScanline y s).stk = s.stk := rfl
@[simp] theorem renderScanline_ram (y : Nat) (s : State) : (renderScanline y s).ram = s.ram := rfl
@[simp] theorem renderScanline_sram (y : Nat) (s : State) : (renderScanline y s).sram = s.sram := rfl
@[simp] theorem renderScanline_prg (y : Nat) (s : State) : (renderScanline y s).prg = s.prg := rfl
@[simp] theorem renderScanline_prgPristine (y : Nat) (s : State) : (renderScanline y s).prgPristine = s.prgPristine := rfl
@[simp] theorem renderScanline_fallback (y : Nat) (s : State) : (renderScanline y s).fallback = s.fallback := rfl
@[simp] theorem renderScanline_strobe (y : Nat) (s : State) : (renderScanline y s).strobe = s.strobe := rfl
@[simp] theorem renderScanline_shiftIdx0 (y : Nat) (s : State) : (renderScanline y s).shiftIdx0 = s.shiftIdx0 := rfl
@[simp] theorem renderScanline_shiftIdx1 (y : Nat) (s : State) : (renderScanline y s).shiftIdx1 = s.shiftIdx1 := rfl
@[simp] theorem renderScanline_controls (y : Nat) (s : State) : (renderScanline y s).controls = s.controls := rfl
@[simp] theorem renderScanline_restartRequested (y : Nat) (s : State) : (renderScanline y s).restartRequested = s.restartRequested := rfl
@[simp] theorem renderScanline_anomalies (y : Nat) (s : State) : (renderScanline y s).anomalies = s.anomalies := rfl
@[simp] theorem renderScanline_cfg (y : Nat) (s : State) : (renderScanline y s).cfg = s.cfg := rfl
@[simp] theorem renderScanline_nmiPending (y : Nat) (s : State) : (renderScanline y s).nmiPending = s.nmiPending := rfl
@[simp] theorem renderScanline_ppu_pattern0 (y : Nat) (s : State) : (renderScanline y s).ppu.pattern0 = s.ppu.pattern0 := by
  simp only [renderScanline, State.setPpu]
  split <;> rfl
@[simp] theorem renderScanline_ppu_pattern1 (y : Nat) (s : State) : (renderScanline y s).ppu.pattern1 = s.ppu.pattern1 := by
  simp only [renderScanline, State.setPpu]
  split <;> rfl
@[simp] theorem renderScanline_ppu_nametable0 (y : Nat) (s : State) : (renderScanline y s).ppu.nametable0 = s.ppu.nametable0 := by
  simp only [renderScanline, State.setPpu]
  split <;> rfl
@[simp] theorem renderScanline_ppu_nametable1 (y : Nat) (s : State) : (renderScanline y s).ppu.nametable1 = s.ppu.nametable1 := by
  simp only [renderScanline, State.setPpu]
  split <;> rfl
@[simp] theorem renderScanline_ppu_oam (y : Nat) (s : State) : (renderScanline y s).ppu.oam = s.ppu.oam := by
  simp only [renderScanline, State.setPpu]
  split <;> rfl
@[simp] theorem renderScanline_ppu_pal (y : Nat) (s : State) : (renderScanline y s).ppu.pal = s.ppu.pal := by
  simp only [renderScanline, State.setPpu]
  split <;> rfl
@[simp] theorem renderScanline_ppu_ctrl (y : Nat) (s : State) : (renderScanline y s).ppu.ctrl = s.ppu.ctrl := by
  simp only [renderScanline, State.setPpu]
  split <;> rfl
@[simp] theorem renderScanline_ppu_mask (y : Nat) (s : State) : (renderScanline y s).ppu.mask = s.ppu.mask := by
  simp only [renderScanline, State.setPpu]
  split <;> rfl
@[simp] theorem renderScanline_ppu_oamAddr (y : Nat) (s : State) : (renderScanline y s).ppu.oamAddr = s.ppu.oamAddr := by
  simp only [renderScanline, State.setPpu]
  split <;> rfl
@[simp] theorem renderScanline_ppu_vaddr (y : Nat) (s : State) : (renderScanline y s).ppu.vaddr = s.ppu.vaddr := by
  simp only [renderScanline, State.setPpu]
  split <;> rfl
@[simp] theorem renderScanline_ppu_scrollX (y : Nat) (s : State) : (renderScanline y s).ppu.scrollX = s.ppu.scrollX := by
  simp only [renderScanline, State.setPpu]
  split <;> rfl
@[simp] theorem renderScanline_ppu_scrollY (y : Nat) (s : State) : (renderScanline y s).ppu.scrollY = s.ppu.scrollY := by
  simp only [renderScanline, State.setPpu]
  split <;> rfl
@[simp] theorem renderScanline_ppu_toggle (y : Nat) (s : State) : (renderScanline y s).ppu.toggle = s.ppu.toggle := by
  simp only [renderScanline, State.setPpu]
  split <;> rfl
@[simp] theorem renderScanline_ppu_readBuffer (y : Nat) (s : State) : (renderScanline y s).ppu.readBuffer = s.ppu.readBuffer := by
  simp only [renderScanline, State.setPpu]
  split <;> rfl
@[simp] theorem renderScanline_ppu_masterSlave (y : Nat) (s : State) : (renderScanline y s).ppu.masterSlave = s.ppu.masterSlave := by
  simp only [renderScanline, State.setPpu]
  split <;> rfl
@[simp] theorem renderScanline_ppu_vblank (y : Nat) (s : State) : (renderScanline y s).ppu.vblank = s.ppu.vblank := by
  simp only [renderScanline, State.setPpu]
  split <;> rfl
@[simp] theorem renderScanline_ppu_cycle (y : Nat) (s : State) : (renderScanline y s).ppu.cycle = s.ppu.cycle := by
  simp only [renderScanline, State.setPpu]
  split <;> rfl
@[simp] theorem renderScanline_ppu_scanline (y : Nat) (s : State) : (renderScanline y s).ppu.scanline = s.ppu.scanline := by
  simp only [renderScanline, State.setPpu]
  split <;> rfl
@[simp] theorem renderScanline_ppu_frameCount (y : Nat) (s : State) : (renderScanline y s).ppu.frameCount = s.ppu.frameCount := by
  simp only [renderScanline, State.setPpu]
  split <;> rfl
@[simp] theorem renderScanline_ppu_out (y : Nat) (s : State) : (renderScanline y s).ppu.out = s.ppu.out := by
  simp only [renderScanline, State.setPpu]
  split <;> rfl

@[simp] theorem lineWork_a (l : Nat) (s : State) : (lineWork l s).a = s.a := by
  simp only [lineWork, startVblank, finishFrame]
  split_ifs <;> rfl
@[simp] theorem lineWork_x (l : Nat) (s : State) : (lineWork l s).x = s.x := by
  simp only [lineWork, startVblank, finishFrame]
  split_ifs <;> rfl
@[simp] theorem lineWork_y (l : Nat) (s : State) : (lineWork l s).y = s.y := by
  simp only [lineWork, startVblank, finishFrame]
  split_ifs <;> rfl
@[simp] theorem lineWork_sp (l : Nat) (s : State) : (lineWork l s).sp = s.sp := by
  simp only [lineWork, startVblank, finishFrame]
  split_ifs <;> rfl
@[simp] theorem lineWork_p (l : Nat) (s : State) : (lineWork l s).p = s.p := by
  simp only [lineWork, startVblank, finishFrame]
  split_ifs <;> rfl
@[simp] theorem lineWork_pc (l : Nat) (s : State) : (lineWork l s).pc = s.pc := by
  simp only [lineWork, startVblank, finishFrame]
  split_ifs <;> rfl
@[simp] theorem lineWork_retPc (l : Nat) (s : State) : (lineWork l s).retPc = s.retPc := by
  simp only [lineWork, startVblank, finishFrame]
  split_ifs <;> rfl
@[simp] theorem lineWork_ctx (l : Nat) (s : State) : (lineWork l s).ctx = s.ctx := by
  simp only [lineWork, startVblank, finishFrame]
  split_ifs <;> rfl
@[simp] theorem lineWork_irqPending (l : Nat) (s : State) : (lineWork l s).irqPending = s.irqPending := by
  simp only [lineWork, startVblank, finishFrame]
  split_ifs <;> rfl
@[simp] theorem lineWork_zp (l : Nat) (s : State) : (lineWork l s).zp = s.zp := by
  simp only [lineWork, startVblank, finishFrame]
  split_ifs <;> rfl
@[simp] theorem lineWork_stk (l : Nat) (s : State) : (lineWork l s).stk = s.stk := by
  simp only [lineWork, startVblank, finishFrame]
  split_ifs <;> rfl
@[simp] theorem lineWork_ram (l : Nat) (s : State) : (lineWork l s).ram = s.ram := by
  simp only [lineWork, startVblank, finishFrame]
  split_ifs <;> rfl
@[simp] theorem lineWork_sram (l : Nat) (s : State) : (lineWork l s).sram = s.sram := by
  simp only [lineWork, startVblank, finishFrame]
  split_ifs <;> rfl
@[simp] theorem lineWork_prg (l : Nat) (s : State) : (lineWork l s).prg = s.prg := by
  simp only [lineWork, startVblank, finishFrame]
  split_ifs <;> rfl
@[simp] theorem lineWork_prgPristine (l : Nat) (s : State) : (lineWork l s).prgPristine = s.prgPristine := by
  simp only [lineWork, startVblank, finishFrame]
  split_ifs <;> rfl
@[simp] theorem lineWork_fallback (l : Nat) (s : State) : (lineWork l s).fallback = s.fallback := by
  simp only [lineWork, startVblank, finishFrame]
  split_ifs <;> rfl
@[simp] theorem lineWork_strobe (l : Nat) (s : State) : (lineWork l s).strobe = s.strobe := by
  simp only [lineWork, startVblank, finishFrame]
  split_ifs <;> rfl
@[simp] theorem lineWork_shiftIdx0 (l : Nat) (s : State) : (lineWork l s).shiftIdx0 = s.shiftIdx0 := by
  simp only [lineWork, startVblank, finishFrame]
  split_ifs <;> rfl
@[simp] theorem lineWork_shiftIdx1 (l : Nat) (s : State) : (lineWork l s).shiftIdx1 = s.shiftIdx1 := by
  simp only [lineWork, startVblank, finishFrame]
  split_ifs <;> rfl
@[simp] theorem lineWork_controls (l : Nat) (s : State) : (lineWork l s).controls = s.controls := by
  simp only [lineWork, startVblank, finishFrame]
  split_ifs <;> rfl
@[simp] theorem lineWork_restartRequested (l : Nat) (s : State) : (lineWork l s).restartRequested = s.restartRequested := by
  simp only [lineWork, startVblank, finishFrame]
  split_ifs <;> rfl
@[simp] theorem lineWork_anomalies (l : Nat) (s : State) : (lineWork l s).anomalies = s.anomalies := by
  simp only [lineWork, startVblank, finishFrame]
  split_ifs <;> rfl
@[simp] theorem lineWork_cfg (l : Nat) (s : State) : (lineWork l s).cfg = s.cfg := by
  simp only [lineWork, startVblank, finishFrame]
  split_ifs <;> rfl
@[simp] theorem lineWork_ppu_pattern0 (l : Nat) (s : State) : (lineWork l s).ppu.pattern0 = s.ppu.pattern0 := by
  simp only [lineWork, startVblank, finishFrame, State.setPpu]
  split_ifs <;> simp
@[simp] theorem lineWork_ppu_pattern1 (l : Nat) (s : State) : (lineWork l s).ppu.pattern1 = s.ppu.pattern1 := by
  simp only [lineWork, startVblank, finishFrame, State.setPpu]
  split_ifs <;> simp
@[simp] theorem lineWork_ppu_nametable0 (l : Nat) (s : State) : (lineWork l s).ppu.nametable0 = s.ppu.nametable0 := by
  simp only [lineWork, startVblank, finishFrame, State.setPpu]
  split_ifs <;> simp
@[simp] theorem lineWork_ppu_nametable1 (l : Nat) (s : State) : (lineWork l s).ppu.nametable1 = s.ppu.nametable1 := by
  simp only [lineWork, startVblank, finishFrame, State.setPpu]
  split_ifs <;> simp
@[simp] theorem lineWork_ppu_oam (l : Nat) (s : State) : (lineWork l s).ppu.oam = s.ppu.oam := by
  simp only [lineWork, startVblank, finishFrame, State.setPpu]
  split_ifs <;> simp
@[simp] theorem lineWork_ppu_pal (l : Nat) (s : State) : (lineWork l s).ppu.pal = s.ppu.pal := by
  simp only [lineWork, startVblank, finishFrame, State.setPpu]
  split_ifs <;> simp
@[simp] theorem lineWork_ppu_ctrl (l : Nat) (s : State) : (lineWork l s).ppu.ctrl = s.ppu.ctrl := by
  simp only [lineWork, startVblank, finishFrame, State.setPpu]
  split_ifs <;> simp
@[simp] theorem lineWork_ppu_mask (l : Nat) (s : State) : (lineWork l s).ppu.mask = s.ppu.mask := by
  simp only [lineWork, startVblank, finishFrame, State.setPpu]
  split_ifs <;> simp
@[simp] theorem lineWork_ppu_oamAddr (l : Nat) (s : State) : (lineWork l s).ppu.oamAddr = s.ppu.oamAddr := by
  simp only [lineWork, startVblank, finishFrame, State.setPpu]
  split_ifs <;> simp
@[simp] theorem lineWork_ppu_vaddr (l : Nat) (s : State) : (lineWork l s).ppu.vaddr = s.ppu.vaddr := by
  simp only [lineWork, startVblank, finishFrame, State.setPpu]
  split_ifs <;> simp
@[simp] theorem lineWork_ppu_scrollX (l : Nat) (s : State) : (lineWork l s).ppu.scrollX = s.ppu.scrollX := by
  simp only [lineWork, startVblank, finishFrame, State.setPpu]
  split_ifs <;> simp
@[simp] theorem lineWork_ppu_scrollY (l : Nat) (s : State) : (lineWork l s).ppu.scrollY = s.ppu.scrollY := by
  simp only [lineWork, startVblank, finishFrame, State.setPpu]
  split_ifs <;> simp
@[simp] theorem lineWork_ppu_toggle (l : Nat) (s : State) : (lineWork l s).ppu.toggle = s.ppu.toggle := by
  simp only [lineWork, startVblank, finishFrame, State.setPpu]
  split_ifs <;> simp
@[simp] theorem lineWork_ppu_readBuffer (l : Nat) (s : State) : (lineWork l s).ppu.readBuffer = s.ppu.readBuffer := by
  simp only [lineWork, startVblank, finishFrame, State.setPpu]
  split_ifs <;> simp
@[simp] theorem lineWork_ppu_masterSlave (l : Nat) (s : State) : (lineWork l s).ppu.masterSlave = s.ppu.masterSlave := by
  simp only [lineWork, startVblank, finishFrame, State.setPpu]
  split_ifs <;> simp
@[simp] theorem lineWork_ppu_cycle (l : Nat) (s : State) : (lineWork l s).ppu.cycle = s.ppu.cycle := by
  simp only [lineWork, startVblank, finishFrame, State.setPpu]
  split_ifs <;> simp
@[simp] theorem lineWork_ppu_scanline (l : Nat) (s : State) : (lineWork l s).ppu.scanline = s.ppu.scanline := by
  simp only [lineWork, startVblank, finishFrame, State.setPpu]
  split_ifs <;> simp

/-- The NMI request after the work of line `l` (R408). -/
theorem lineWork_nmiPending (l : Nat) (s : State) :
    (lineWork l s).nmiPending = (s.nmiPending || (decide (l = s.cfg.vblankStart) && s.ppu.ctrl.nmi)) := by
  simp only [lineWork, startVblank, finishFrame, State.setPpu]
  split_ifs <;> simp_all

/-- The vertical-blank flag after the work of line `l` (R406). -/
theorem lineWork_vblank (l : Nat) (s : State) :
    (lineWork l s).ppu.vblank = (s.ppu.vblank || decide (l = s.cfg.vblankStart)) := by
  simp only [lineWork, startVblank, finishFrame, State.setPpu]
  split_ifs <;> simp_all

/-- The frame counter after the work of line `l` (R405). -/
theorem lineWork_frameCount (l : Nat) (s : State) :
    (lineWork l s).ppu.frameCount = if l = s.cfg.visibleHeight then s.ppu.frameCount + 1 else s.ppu.frameCount := by
  simp only [lineWork, startVblank, finishFrame, State.setPpu]
  split_ifs <;> first | omega | simp

/-- The output buffer after the work of line `l` (R405). -/
theorem lineWork_out (l : Nat) (s : State) :
    (lineWork l s).ppu.out = if l = s.cfg.visibleHeight then s.ppu.work.reverse else s.ppu.out := by
  simp only [lineWork, startVblank, finishFrame, State.setPpu]
  split_ifs <;> first | omega | simp

@[simp] theorem finishLine_a (l : Nat) (s : State) : (finishLine l s).a = s.a := by
  simp only [finishLine, wrapFrame, State.setPpu]
  split_ifs <;> simp
@[simp] theorem finishLine_x (l : Nat) (s : State) : (finishLine l s).x = s.x := by
  simp only [finishLine, wrapFrame, State.setPpu]
  split_ifs <;> simp
@[simp] theorem finishLine_y (l : Nat) (s : State) : (finishLine l s).y = s.y := by
  simp only [finishLine, wrapFrame, State.setPpu]
  split_ifs <;> simp
@[simp] theorem finishLine_sp (l : Nat) (s : State) : (finishLine l s).sp = s.sp := by
  simp only [finishLine, wrapFrame, State.setPpu]
  split_ifs <;> simp
@[simp] theorem finishLine_p (l : Nat) (s : State) : (finishLine l s).p = s.p := by
  simp only [finishLine, wrapFrame, State.setPpu]
  split_ifs <;> simp
@[simp] theorem finishLine_pc (l : Nat) (s : State) : (finishLine l s).pc = s.pc := by
  simp only [finishLine, wrapFrame, State.setPpu]
  split_ifs <;> simp
@[simp] theorem finishLine_retPc (l : Nat) (s : State) : (finishLine l s).retPc = s.retPc := by
  simp only [finishLine, wrapFrame, State.setPpu]
  split_ifs <;> simp
@[simp] theorem finishLine_ctx (l : Nat) (s : State) : (finishLine l s).ctx = s.ctx := by
  simp only [finishLine, wrapFrame, State.setPpu]
  split_ifs <;> simp
@[simp] theorem finishLine_irqPending (l : Nat) (s : State) : (finishLine l s).irqPending = s.irqPending := by
  simp only [finishLine, wrapFrame, State.setPpu]
  split_ifs <;> simp
@[simp] theorem finishLine_zp (l : Nat) (s : State) : (finishLine l s).zp = s.zp := by
  simp only [finishLine, wrapFrame, State.setPpu]
  split_ifs <;> simp
@[simp] theorem finishLine_stk (l : Nat) (s : State) : (finishLine l s).stk = s.stk := by
  simp only [finishLine, wrapFrame, State.setPpu]
  split_ifs <;> simp
@[simp] theorem finishLine_ram (l : Nat) (s : State) : (finishLine l s).ram = s.ram := by
  simp only [finishLine, wrapFrame, State.setPpu]
  split_ifs <;> simp
@[simp] theorem finishLine_sram (l : Nat) (s : State) : (finishLine l s).sram = s.sram := by
  simp only [finishLine, wrapFrame, State.setPpu]
  split_ifs <;> simp
@[simp] theorem finishLine_prg (l : Nat) (s : State) : (finishLine l s).prg = s.prg := by
  simp only [finishLine, wrapFrame, State.setPpu]
  split_ifs <;> simp
@[simp] theorem finishLine_prgPristine (l : Nat) (s : State) : (finishLine l s).prgPristine = s.prgPristine := by
  simp only [finishLine, wrapFrame, State.setPpu]
  split_ifs <;> simp
@[simp] theorem finishLine_fallback (l : Nat) (s : State) : (finishLine l s).fallback = s.fallback := by
  simp only [finishLine, wrapFrame, State.setPpu]
  split_ifs <;> simp
@[simp] theorem finishLine_strobe (l : Nat) (s : State) : (finishLine l s).strobe = s.strobe := by
  simp only [finishLine, wrapFrame, State.setPpu]
  split_ifs <;> simp
@[simp] theorem finishLine_shiftIdx0 (l : Nat) (s : State) : (finishLine l s).shiftIdx0 = s.shiftIdx0 := by
  simp only [finishLine, wrapFrame, State.setPpu]
  split_ifs <;> simp
@[simp] theorem finishLine_shiftIdx1 (l : Nat) (s : State) : (finishLine l s).shiftIdx1 = s.shiftIdx1 := by
  simp only [finishLine, wrapFrame, State.setPpu]
  split_ifs <;> simp
@[simp] theorem finishLine_controls (l : Nat) (s : State) : (finishLine l s).controls = s.controls := by
  simp only [finishLine, wrapFrame, State.setPpu]
  split_ifs <;> simp
@[simp] theorem finishLine_restartRequested (l : Nat) (s : State) : (finishLine l s).restartRequested = s.restartRequested := by
  simp only [finishLine, wrapFrame, State.setPpu]
  split_ifs <;> simp
@[simp] theorem finishLine_anomalies (l : Nat) (s : State) : (finishLine l s).anomalies = s.anomalies := by
  simp only [finishLine, wrapFrame, State.setPpu]
  split_ifs <;> simp
@[simp] theorem finishLine_cfg (l : Nat) (s : State) : (finishLine l s).cfg = s.cfg := by
  simp only [finishLine, wrapFrame, State.setPpu]
  split_ifs <;> simp
@[simp] theorem finishLine_ppu_pattern0 (l : Nat) (s : State) : (finishLine l s).ppu.pattern0 = s.ppu.pattern0 := by
  simp only [finishLine, wrapFrame, State.setPpu]
  split_ifs <;> simp
@[simp] theorem finishLine_ppu_pattern1 (l : Nat) (s : State) : (finishLine l s).ppu.pattern1 = s.ppu.pattern1 := by
  simp only [finishLine, wrapFrame, State.setPpu]
  split_ifs <;> simp
@[simp] theorem finishLine_ppu_nametable0 (l : Nat) (s : State) : (finishLine l s).ppu.nametable0 = s.ppu.nametable0 := by
  simp only [finishLine, wrapFrame, State.setPpu]
  split_ifs <;> simp
@[simp] theorem finishLine_ppu_nametable1 (l : Nat) (s : State) : (finishLine l s).ppu.nametable1 = s.ppu.nametable1 := by
  simp only [finishLine, wrapFrame, State.setPpu]
  split_ifs <;> simp
@[simp] theorem finishLine_ppu_oam (l : Nat) (s : State) : (finishLine l s).ppu.oam = s.ppu.oam := by
  simp only [finishLine, wrapFrame, State.setPpu]
  split_ifs <;> simp
@[simp] theorem finishLine_ppu_pal (l : Nat) (s : State) : (finishLine l s).ppu.pal = s.ppu.pal := by
  simp only [finishLine, wrapFrame, State.setPpu]
  split_ifs <;> simp
@[simp] theorem finishLine_ppu_ctrl (l : Nat) (s : State) : (finishLine l s).ppu.ctrl = s.ppu.ctrl := by
  simp only [finishLine, wrapFrame, State.setPpu]
  split_ifs <;> simp
@[simp] theorem finishLine_ppu_mask (l : Nat) (s : State) : (finishLine l s).ppu.mask = s.ppu.mask := by
  simp only [finishLine, wrapFrame, State.setPpu]
  split_ifs <;> simp
@[simp] theorem finishLine_ppu_oamAddr (l : Nat) (s : State) : (finishLine l s).ppu.oamAddr = s.ppu.oamAddr := by
  simp only [finishLine, wrapFrame, State.setPpu]
  split_ifs <;> simp
@[simp] theorem finishLine_ppu_vaddr (l : Nat) (s : State) : (finishLine l s).ppu.vaddr = s.ppu.vaddr := by
  simp only [finishLine, wrapFrame, State.setPpu]
  split_ifs <;> simp
@[simp] theorem finishLine_ppu_scrollX (l : Nat) (s : State) : (finishLine l s).ppu.scrollX = s.ppu.scrollX := by
  simp only [finishLine, wrapFrame, State.setPpu]
  split_ifs <;> simp
@[simp] theorem finishLine_ppu_scrollY (l : Nat) (s : State) : (finishLine l s).ppu.scrollY = s.ppu.scrollY := by
  simp only [finishLine, wrapFrame, State.setPpu]
  split_ifs <;> simp
@[simp] theorem finishLine_ppu_toggle (l : Nat) (s : State) : (finishLine l s).ppu.toggle = s.ppu.toggle := by
  simp only [finishLine, wrapFrame, State.setPpu]
  split_ifs <;> simp
@[simp] theorem finishLine_ppu_readBuffer (l : Nat) (s : State) : (finishLine l s).ppu.readBuffer = s.ppu.readBuffer := by
  simp only [finishLine, wrapFrame, State.setPpu]
  split_ifs <;> simp
@[simp] theorem finishLine_ppu_masterSlave (l : Nat) (s : State) : (finishLine l s).ppu.masterSlave = s.ppu.masterSlave := by
  simp only [finishLine, wrapFrame, State.setPpu]
  split_ifs <;> simp
@[simp] theorem finishLine_ppu_cycle (l : Nat) (s : State) : (finishLine l s).ppu.cycle = s.ppu.cycle := by
  simp only [finishLine, wrapFrame, State.setPpu]
  split_ifs <;> simp

/-- A PPU cycle inside a scanline only counts (R403). -/
theorem ppuCycle_inside (s : State) (h : atLineEnd s = false) :
    ppuCycle s = s.setPpu { s.ppu with cycle := s.ppu.cycle + 1 } := by
  simp only [atLineEnd, decide_eq_false_iff_not] at h
  rw [ppuCycle, if_pos (by omega)]

/-- A PPU cycle that completes a scanline resets the counter and does the line's work (R403). -/
theorem ppuCycle_lineEnd (s : State) (h : atLineEnd s = true) :
    ppuCycle s = finishLine s.ppu.scanline (s.setPpu { s.ppu with cycle := 0 }) := by
  simp only [atLineEnd, decide_eq_true_eq] at h
  rw [ppuCycle, if_neg (by omega)]

@[simp] theorem ppuCycle_a (s : State) : (ppuCycle s).a = s.a := by
  simp only [ppuCycle]
  split_ifs <;> simp
@[simp] theorem ppuCycle_x (s : State) : (ppuCycle s).x = s.x := by
  simp only [ppuCycle]
  split_ifs <;> simp
@[simp] theorem ppuCycle_y (s : State) : (ppuCycle s).y = s.y := by
  simp only [ppuCycle]
  split_ifs <;> simp
@[simp] theorem ppuCycle_sp (s : State) : (ppuCycle s).sp = s.sp := by
  simp only [ppuCycle]
  split_ifs <;> simp
@[simp] theorem ppuCycle_p (s : State) : (ppuCycle s).p = s.p := by
  simp only [ppuCycle]
  split_ifs <;> simp
@[simp] theorem ppuCycle_pc (s : State) : (ppuCycle s).pc = s.pc := by
  simp only [ppuCycle]
  split_ifs <;> simp
@[simp] theorem ppuCycle_retPc (s : State) : (ppuCycle s).retPc = s.retPc := by
  simp only [ppuCycle]
  split_ifs <;> simp
@[simp] theorem ppuCycle_ctx (s : State) : (ppuCycle s).ctx = s.ctx := by
  simp only [ppuCycle]
  split_ifs <;> simp
@[simp] theorem ppuCycle_irqPending (s : State) : (ppuCycle s).irqPending = s.irqPending := by
  simp only [ppuCycle]
  split_ifs <;> simp
@[simp] theorem ppuCycle_zp (s : State) : (ppuCycle s).zp = s.zp := by
  simp only [ppuCycle]
  split_ifs <;> simp
@[simp] theorem ppuCycle_stk (s : State) : (ppuCycle s).stk = s.stk := by
  simp only [ppuCycle]
  split_ifs <;> simp
@[simp] theorem ppuCycle_ram (s : State) : (ppuCycle s).ram = s.ram := by
  simp only [ppuCycle]
  split_ifs <;> simp
@[simp] theorem ppuCycle_sram (s : State) : (ppuCycle s).sram = s.sram := by
  simp only [ppuCycle]
  split_ifs <;> simp
@[simp] theorem ppuCycle_prg (s : State) : (ppuCycle s).prg = s.prg := by
  simp only [ppuCycle]
  split_ifs <;> simp
@[simp] theorem ppuCycle_prgPristine (s : State) : (ppuCycle s).prgPristine = s.prgPristine := by
  simp only [ppuCycle]
  split_ifs <;> simp
@[simp] theorem ppuCycle_fallback (s : State) : (ppuCycle s).fallback = s.fallback := by
  simp only [ppuCycle]
  split_ifs <;> simp
@[simp] theorem ppuCycle_strobe (s : State) : (ppuCycle s).strobe = s.strobe := by
  simp only [ppuCycle]
  split_ifs <;> simp
@[simp] theorem ppuCycle_shiftIdx0 (s : State) : (ppuCycle s).shiftIdx0 = s.shiftIdx0 := by
  simp only [ppuCycle]
  split_ifs <;> simp
@[simp] theorem ppuCycle_shiftIdx1 (s : State) : (ppuCycle s).shiftIdx1 = s.shiftIdx1 := by
  simp only [ppuCycle]
  split_ifs <;> simp
@[simp] theorem ppuCycle_controls (s : State) : (ppuCycle s).controls = s.controls := by
  simp only [ppuCycle]
  split_ifs <;> simp
@[simp] theorem ppuCycle_restartRequested (s : State) : (ppuCycle s).restartRequested = s.restartRequested := by
  simp only [ppuCycle]
  split_ifs <;> simp
@[simp] theorem ppuCycle_anomalies (s : State) : (ppuCycle s).anomalies = s.anomalies := by
  simp only [ppuCycle]
  split_ifs <;> simp
@[simp] theorem ppuCycle_cfg (s : State) : (ppuCycle s).cfg = s.cfg := by
  simp only [ppuCycle]
  split_ifs <;> simp
@[simp] theorem ppuCycle_ppu_pattern0 (s : State) : (ppuCycle s).ppu.pattern0 = s.ppu.pattern0 := by
  simp only [ppuCycle]
  split_ifs <;> simp
@[simp] theorem ppuCycle_ppu_pattern1 (s : State) : (ppuCycle s).ppu.pattern1 = s.ppu.pattern1 := by
  simp only [ppuCycle]
  split_ifs <;> simp
@[simp] theorem ppuCycle_ppu_nametable0 (s : State) : (ppuCycle s).ppu.nametable0 = s.ppu.nametable0 := by
  simp only [ppuCycle]
  split_ifs <;> simp
@[simp] theorem ppuCycle_ppu_nametable1 (s : State) : (ppuCycle s).ppu.nametable1 = s.ppu.nametable1 := by
  simp only [ppuCycle]
  split_ifs <;> simp
@[simp] theorem ppuCycle_ppu_oam (s : State) : (ppuCycle s).ppu.oam = s.ppu.oam := by
  simp only [ppuCycle]
  split_ifs <;> simp
@[simp] theorem ppuCycle_ppu_pal (s : State) : (ppuCycle s).ppu.pal = s.ppu.pal := by
  simp only [ppuCycle]
  split_ifs <;> simp
@[simp] theorem ppuCycle_ppu_ctrl (s : State) : (ppuCycle s).ppu.ctrl = s.ppu.ctrl := by
  simp only [ppuCycle]
  split_ifs <;> simp
@[simp] theorem ppuCycle_ppu_mask (s : State) : (ppuCycle s).ppu.mask = s.ppu.mask := by
  simp only [ppuCycle]
  split_ifs <;> simp
@[simp] theorem ppuCycle_ppu_oamAddr (s : State) : (ppuCycle s).ppu.oamAddr = s.ppu.oamAddr := by
  simp only [ppuCycle]
  split_ifs <;> simp
@[simp] theorem ppuCycle_ppu_vaddr (s : State) : (ppuCycle s).ppu.vaddr = s.ppu.vaddr := by
  simp only [ppuCycle]
  split_ifs <;> simp
@[simp] theorem ppuCycle_ppu_scrollX (s : State) : (ppuCycle s).ppu.scrollX = s.ppu.scrollX := by
  simp only [ppuCycle]
  split_ifs <;> simp
@[simp] theorem ppuCycle_ppu_scrollY (s : State) : (ppuCycle s).ppu.scrollY = s.ppu.scrollY := by
  simp only [ppuCycle]
  split_ifs <;> simp
@[simp] theorem ppuCycle_ppu_toggle (s : State) : (ppuCycle s).ppu.toggle = s.ppu.toggle := by
  simp only [ppuCycle]
  split_ifs <;> simp
@[simp] theorem ppuCycle_ppu_readBuffer (s : State) : (ppuCycle s).ppu.readBuffer = s.ppu.readBuffer := by
  simp only [ppuCycle]
  split_ifs <;> simp
@[simp] theorem ppuCycle_ppu_masterSlave (s : State) : (ppuCycle s).ppu.masterSlave = s.ppu.masterSlave := by
  simp only [ppuCycle]
  split_ifs <;> simp

/-- An induction over PPU cycles: what one keeps, any number keeps. -/
theorem ppuAdvance_induct (P : State → Prop) (hstep : ∀ s, P s → P (ppuCycle s)) :
    ∀ (k : Nat) (s : State), P s → P (ppuAdvance k s) := by
  intro k
  induction k with
  | zero => intro s h; exact h
  | succ k ih => intro s h; exact ih _ (hstep s h)

/-- `PpuAdvance(k)` is the k-th iterate of `PpuCycle()` (R401). -/
theorem ppuAdvance_eq_iterate (k : Nat) (s : State) : ppuAdvance k s = ppuCycle^[k] s := by
  induction k generalizing s with
  | zero => rfl
  | succ k ih => exact ih _

@[simp] theorem ppuAdvance_a (k : Nat) (s : State) : (ppuAdvance k s).a = s.a :=
  ppuAdvance_induct (fun t => t.a = s.a) (fun t h => by rw [ppuCycle_a]; exact h) k s rfl
@[simp] theorem ppuAdvance_x (k : Nat) (s : State) : (ppuAdvance k s).x = s.x :=
  ppuAdvance_induct (fun t => t.x = s.x) (fun t h => by rw [ppuCycle_x]; exact h) k s rfl
@[simp] theorem ppuAdvance_y (k : Nat) (s : State) : (ppuAdvance k s).y = s.y :=
  ppuAdvance_induct (fun t => t.y = s.y) (fun t h => by rw [ppuCycle_y]; exact h) k s rfl
@[simp] theorem ppuAdvance_sp (k : Nat) (s : State) : (ppuAdvance k s).sp = s.sp :=
  ppuAdvance_induct (fun t => t.sp = s.sp) (fun t h => by rw [ppuCycle_sp]; exact h) k s rfl
@[simp] theorem ppuAdvance_p (k : Nat) (s : State) : (ppuAdvance k s).p = s.p :=
  ppuAdvance_induct (fun t => t.p = s.p) (fun t h => by rw [ppuCycle_p]; exact h) k s rfl
@[simp] theorem ppuAdvance_pc (k : Nat) (s : State) : (ppuAdvance k s).pc = s.pc :=
  ppuAdvance_induct (fun t => t.pc = s.pc) (fun t h => by rw [ppuCycle_pc]; exact h) k s rfl
@[simp] theorem ppuAdvance_retPc (k : Nat) (s : State) : (ppuAdvance k s).retPc = s.retPc :=
  ppuAdvance_induct (fun t => t.retPc = s.retPc) (fun t h => by rw [ppuCycle_retPc]; exact h) k s rfl
@[simp] theorem ppuAdvance_ctx (k : Nat) (s : State) : (ppuAdvance k s).ctx = s.ctx :=
  ppuAdvance_induct (fun t => t.ctx = s.ctx) (fun t h => by rw [ppuCycle_ctx]; exact h) k s rfl
@[simp] theorem ppuAdvance_irqPending (k : Nat) (s : State) : (ppuAdvance k s).irqPending = s.irqPending :=
  ppuAdvance_induct (fun t => t.irqPending = s.irqPending) (fun t h => by rw [ppuCycle_irqPending]; exact h) k s rfl
@[simp] theorem ppuAdvance_zp (k : Nat) (s : State) : (ppuAdvance k s).zp = s.zp :=
  ppuAdvance_induct (fun t => t.zp = s.zp) (fun t h => by rw [ppuCycle_zp]; exact h) k s rfl
@[simp] theorem ppuAdvance_stk (k : Nat) (s : State) : (ppuAdvance k s).stk = s.stk :=
  ppuAdvance_induct (fun t => t.stk = s.stk) (fun t h => by rw [ppuCycle_stk]; exact h) k s rfl
@[simp] theorem ppuAdvance_ram (k : Nat) (s : State) : (ppuAdvance k s).ram = s.ram :=
  ppuAdvance_induct (fun t => t.ram = s.ram) (fun t h => by rw [ppuCycle_ram]; exact h) k s rfl
@[simp] theorem ppuAdvance_sram (k : Nat) (s : State) : (ppuAdvance k s).sram = s.sram :=
  ppuAdvance_induct (fun t => t.sram = s.sram) (fun t h => by rw [ppuCycle_sram]; exact h) k s rfl
@[simp] theorem ppuAdvance_prg (k : Nat) (s : State) : (ppuAdvance k s).prg = s.prg :=
  ppuAdvance_induct (fun t => t.prg = s.prg) (fun t h => by rw [ppuCycle_prg]; exact h) k s rfl
@[simp] theorem ppuAdvance_prgPristine (k : Nat) (s : State) : (ppuAdvance k s).prgPristine = s.prgPristine :=
  ppuAdvance_induct (fun t => t.prgPristine = s.prgPristine) (fun t h => by rw [ppuCycle_prgPristine]; exact h) k s rfl
@[simp] theorem ppuAdvance_fallback (k : Nat) (s : State) : (ppuAdvance k s).fallback = s.fallback :=
  ppuAdvance_induct (fun t => t.fallback = s.fallback) (fun t h => by rw [ppuCycle_fallback]; exact h) k s rfl
@[simp] theorem ppuAdvance_strobe (k : Nat) (s : State) : (ppuAdvance k s).strobe = s.strobe :=
  ppuAdvance_induct (fun t => t.strobe = s.strobe) (fun t h => by rw [ppuCycle_strobe]; exact h) k s rfl
@[simp] theorem ppuAdvance_shiftIdx0 (k : Nat) (s : State) : (ppuAdvance k s).shiftIdx0 = s.shiftIdx0 :=
  ppuAdvance_induct (fun t => t.shiftIdx0 = s.shiftIdx0) (fun t h => by rw [ppuCycle_shiftIdx0]; exact h) k s rfl
@[simp] theorem ppuAdvance_shiftIdx1 (k : Nat) (s : State) : (ppuAdvance k s).shiftIdx1 = s.shiftIdx1 :=
  ppuAdvance_induct (fun t => t.shiftIdx1 = s.shiftIdx1) (fun t h => by rw [ppuCycle_shiftIdx1]; exact h) k s rfl
@[simp] theorem ppuAdvance_controls (k : Nat) (s : State) : (ppuAdvance k s).controls = s.controls :=
  ppuAdvance_induct (fun t => t.controls = s.controls) (fun t h => by rw [ppuCycle_controls]; exact h) k s rfl
@[simp] theorem ppuAdvance_restartRequested (k : Nat) (s : State) : (ppuAdvance k s).restartRequested = s.restartRequested :=
  ppuAdvance_induct (fun t => t.restartRequested = s.restartRequested) (fun t h => by rw [ppuCycle_restartRequested]; exact h) k s rfl
@[simp] theorem ppuAdvance_anomalies (k : Nat) (s : State) : (ppuAdvance k s).anomalies = s.anomalies :=
  ppuAdvance_induct (fun t => t.anomalies = s.anomalies) (fun t h => by rw [ppuCycle_anomalies]; exact h) k s rfl
@[simp] theorem ppuAdvance_cfg (k : Nat) (s : State) : (ppuAdvance k s).cfg = s.cfg :=
  ppuAdvance_induct (fun t => t.cfg = s.cfg) (fun t h => by rw [ppuCycle_cfg]; exact h) k s rfl
@[simp] theorem ppuAdvance_ppu_pattern0 (k : Nat) (s : State) : (ppuAdvance k s).ppu.pattern0 = s.ppu.pattern0 :=
  ppuAdvance_induct (fun t => t.ppu.pattern0 = s.ppu.pattern0) (fun t h => by rw [ppuCycle_ppu_pattern0]; exact h) k s rfl
@[simp] theorem ppuAdvance_ppu_pattern1 (k : Nat) (s : State) : (ppuAdvance k s).ppu.pattern1 = s.ppu.pattern1 :=
  ppuAdvance_induct (fun t => t.ppu.pattern1 = s.ppu.pattern1) (fun t h => by rw [ppuCycle_ppu_pattern1]; exact h) k s rfl
@[simp] theorem ppuAdvance_ppu_nametable0 (k : Nat) (s : State) : (ppuAdvance k s).ppu.nametable0 = s.ppu.nametable0 :=
  ppuAdvance_induct (fun t => t.ppu.nametable0 = s.ppu.nametable0) (fun t h => by rw [ppuCycle_ppu_nametable0]; exact h) k s rfl
@[simp] theorem ppuAdvance_ppu_nametable1 (k : Nat) (s : State) : (ppuAdvance k s).ppu.nametable1 = s.ppu.nametable1 :=
  ppuAdvance_induct (fun t => t.ppu.nametable1 = s.ppu.nametable1) (fun t h => by rw [ppuCycle_ppu_nametable1]; exact h) k s rfl
@[simp] theorem ppuAdvance_ppu_oam (k : Nat) (s : State) : (ppuAdvance k s).ppu.oam = s.ppu.oam :=
  ppuAdvance_induct (fun t => t.ppu.oam = s.ppu.oam) (fun t h => by rw [ppuCycle_ppu_oam]; exact h) k s rfl
@[simp] theorem ppuAdvance_ppu_pal (k : Nat) (s : State) : (ppuAdvance k s).ppu.pal = s.ppu.pal :=
  ppuAdvance_induct (fun t => t.ppu.pal = s.ppu.pal) (fun t h => by rw [ppuCycle_ppu_pal]; exact h) k s rfl
@[simp] theorem ppuAdvance_ppu_ctrl (k : Nat) (s : State) : (ppuAdvance k s).ppu.ctrl = s.ppu.ctrl :=
  ppuAdvance_induct (fun t => t.ppu.ctrl = s.ppu.ctrl) (fun t h => by rw [ppuCycle_ppu_ctrl]; exact h) k s rfl
@[simp] theorem ppuAdvance_ppu_mask (k : Nat) (s : State) : (ppuAdvance k s).ppu.mask = s.ppu.mask :=
  ppuAdvance_induct (fun t => t.ppu.mask = s.ppu.mask) (fun t h => by rw [ppuCycle_ppu_mask]; exact h) k s rfl
@[simp] theorem ppuAdvance_ppu_oamAddr (k : Nat) (s : State) : (ppuAdvance k s).ppu.oamAddr = s.ppu.oamAddr :=
  ppuAdvance_induct (fun t => t.ppu.oamAddr = s.ppu.oamAddr) (fun t h => by rw [ppuCycle_ppu_oamAddr]; exact h) k s rfl
@[simp] theorem ppuAdvance_ppu_vaddr (k : Nat) (s : State) : (ppuAdvance k s).ppu.vaddr = s.ppu.vaddr :=
  ppuAdvance_induct (fun t => t.ppu.vaddr = s.ppu.vaddr) (fun t h => by rw [ppuCycle_ppu_vaddr]; exact h) k s rfl
@[simp] theorem ppuAdvance_ppu_scrollX (k : Nat) (s : State) : (ppuAdvance k s).ppu.scrollX = s.ppu.scrollX :=
  ppuAdvance_induct (fun t => t.ppu.scrollX = s.ppu.scrollX) (fun t h => by rw [ppuCycle_ppu_scrollX]; exact h) k s rfl
@[simp] theorem ppuAdvance_ppu_scrollY (k : Nat) (s : State) : (ppuAdvance k s).ppu.scrollY = s.ppu.scrollY :=
  ppuAdvance_induct (fun t => t.ppu.scrollY = s.ppu.scrollY) (fun t h => by rw [ppuCycle_ppu_scrollY]; exact h) k s rfl
@[simp] theorem ppuAdvance_ppu_toggle (k : Nat) (s : State) : (ppuAdvance k s).ppu.toggle = s.ppu.toggle :=
  ppuAdvance_induct (fun t => t.ppu.toggle = s.ppu.toggle) (fun t h => by rw [ppuCycle_ppu_toggle]; exact h) k s rfl
@[simp] theorem ppuAdvance_ppu_readBuffer (k : Nat) (s : State) : (ppuAdvance k s).ppu.readBuffer = s.ppu.readBuffer :=
  ppuAdvance_induct (fun t => t.ppu.readBuffer = s.ppu.readBuffer) (fun t h => by rw [ppuCycle_ppu_readBuffer]; exact h) k s rfl
@[simp] theorem ppuAdvance_ppu_masterSlave (k : Nat) (s : State) : (ppuAdvance k s).ppu.masterSlave = s.ppu.masterSlave :=
  ppuAdvance_induct (fun t => t.ppu.masterSlave = s.ppu.masterSlave) (fun t h => by rw [ppuCycle_ppu_masterSlave]; exact h) k s rfl

end Sys2Proof.Machine
end

