-- ==== Sys2Proof/Laws/Invariant.lean ====
section
/-! SUPPORT. The invariant `Inv` is kept by every shared operation, by every instruction, by the PPU's cycles and by
the checkpoint, and holds after a reset. -/

namespace Sys2Proof.Machine

/-- A state that agrees with one in the invariant on memories, PPU and parameters is in it. -/
theorem inv_congr (s t : State) (h : Inv s) (hp : getFlag .U t.p = true) (hm : ∀ b, t.memory b = s.memory b) (hu :
    t.ppu = s.ppu) (hpr : t.prgPristine = s.prgPristine)
   (h0 : t.shiftIdx0 ≤ 8) (h1 : t.shiftIdx1 ≤ 8) (hc : t.cfg = s.cfg) : Inv t := by
  constructor
  · rw [hc]; exact h.config
  · exact hp
  · intro b; rw [hm]; exact h.arrays b
  · rw [hpr, h.pristine]; exact (hm .prg).symm
  · intro b; rw [hu]; exact h.ppuArrays b
  · rw [hu]; exact h.oam
  · rw [hu]; exact h.hiddenCells
  · exact h0
  · exact h1
  · rw [hu, hc]; exact h.cycle
  · rw [hu, hc]; exact h.scanline
  · rw [hu]; exact h.sprites
  · rw [hu, hc]; exact h.work
  · rw [hu, hc]; exact h.out

/-- The PPU replaced, its memories kept good and its counters and frames unchanged. -/
theorem inv_ppu (s : State) (u : Ppu) (h : Inv s) (ha : ∀ b : PpuBacking, (u.memory b).good b.size) (ho :
    u.oam.good 0x100)
   (hh : ∀ c ∈ u.pal, c.1 ≠ 0x10 ∧ c.1 ≠ 0x14 ∧ c.1 ≠ 0x18 ∧ c.1 ≠ 0x1C) (e : u.cycle = s.ppu.cycle ∧
       u.scanline = s.ppu.scanline ∧ u.spriteCount = s.ppu.spriteCount ∧ u.work = s.ppu.work ∧
       u.out = s.ppu.out) : Inv (s.setPpu u) := by
  obtain ⟨e1, e2, e3, e4, e5⟩ := e
  constructor
  · exact h.config
  · exact h.unused
  · intro b; simpa using h.arrays b
  · exact h.pristine
  · exact ha
  · exact ho
  · exact hh
  · exact h.shift0
  · exact h.shift1
  · simpa [e1] using h.cycle
  · simpa [e2] using h.scanline
  · simpa [e3] using h.sprites
  · simpa [e4] using h.work
  · simpa [e5] using h.out

/-- PPU registers changed. -/
theorem inv_ppu_regs (s : State) (u : Ppu) (h : Inv s) (hm : ∀ b, u.memory b = s.ppu.memory b) (ho :
    u.oam = s.ppu.oam)
    (e : u.cycle = s.ppu.cycle ∧ u.scanline = s.ppu.scanline ∧ u.spriteCount = s.ppu.spriteCount ∧
    u.work = s.ppu.work ∧ u.out = s.ppu.out) : Inv (s.setPpu u) :=
  inv_ppu s u h (fun b => by rw [hm]; exact h.ppuArrays b) (by rw [ho]; exact h.oam) (by
    have := hm .pal; simp only [Ppu.memory] at this; rw [this]; exact h.hiddenCells) e

/-- A byte read keeps the invariant. -/
theorem inv_read (a : Addr) (s : State) (h : Inv s) : Inv (cpuRead a s).2 := by
  rcases cpuRead_cases a s with e | ⟨r, hr, e⟩ | e
  · rw [e]; exact h
  · rw [e]
    rcases dispatchRead_cases hr with ⟨u, hu, hu'⟩ | hu | hu | hu <;> rw [hu]
    · rcases hu' with rfl | rfl
      · exact inv_ppu_regs s _ h (fun b => by cases b <;> rfl) rfl ⟨rfl, rfl, rfl, rfl, rfl⟩
      · simp only [Ppu.readData]
        split
        · exact inv_ppu_regs s _ h (fun b => by cases b <;> rfl) rfl ⟨rfl, rfl, rfl, rfl, rfl⟩
        · exact inv_ppu_regs s _ h (fun b => by cases b <;> rfl) rfl ⟨rfl, rfl, rfl, rfl, rfl⟩
    · exact h
    · exact inv_congr s _ h h.unused (fun b => by cases b <;> rfl) rfl rfl (controllerBit_le _ _ _ h.shift0) h.shift1 rfl
    · exact inv_congr s _ h h.unused (fun b => by cases b <;> rfl) rfl rfl h.shift0 (controllerBit_le _ _ _ h.shift1) rfl
  · rw [e]; exact inv_congr s _ h h.unused (fun b => by cases b <;> rfl) rfl rfl h.shift0 h.shift1 rfl

/-- An OAM byte written. -/
theorem inv_oam (s : State) (h : Inv s) (i : Nat) (hi : i < 256) (v : Byte) (u : Ppu) (hm :
    ∀ b, u.memory b = s.ppu.memory b) (ho : u.oam = s.ppu.oam.write i v)
   (e : u.cycle = s.ppu.cycle ∧ u.scanline = s.ppu.scanline ∧ u.spriteCount = s.ppu.spriteCount ∧
       u.work = s.ppu.work ∧ u.out = s.ppu.out) : Inv (s.setPpu u) :=
  inv_ppu s u h (fun b => by rw [hm]; exact h.ppuArrays b) (by rw [ho]; exact Memory.good_write _ _ h.oam _ hi _) (by
    have := hm .pal; simp only [Ppu.memory] at this; rw [this]; exact h.hiddenCells) e

/-- OAM DMA keeps the invariant. -/
theorem inv_dma (page : Byte) (s : State) (h : Inv s) : Inv (oamDma page s) :=
  oamDma_induct Inv page s (fun a t => inv_read a t) (fun i v t ht hi => inv_oam t ht i hi v _ (fun b => by cases b <;> rfl) rfl ⟨rfl, rfl, rfl, rfl, rfl⟩) h

/-- The range of a mirrored PPU address: no hidden palette cell. -/
theorem mirrorPpu_range (a : Addr) : mirrorPpu a < 0x3000 ∨ (0x3F00 ≤ mirrorPpu a ∧ mirrorPpu a < 0x3F20 ∧
    mirrorPpu a ≠ 0x3F10 ∧ mirrorPpu a ≠ 0x3F14 ∧ mirrorPpu a ≠ 0x3F18 ∧ mirrorPpu a ≠ 0x3F1C) := by
  simp only [mirrorPpu]
  split_ifs <;> omega

/-- A PPU-space write keeps the invariant. -/
theorem inv_ppuWrite (s : State) (h : Inv s) (a : Addr) (v : Byte) (w : Addr) (mir) :
    Inv (s.setPpu { ppuWrite mir s.ppu a v with vaddr := w }) := by
  have hr := mirrorPpu_range a
  have hcell : (ppuCell mir (mirrorPpu a)).2 < (ppuCell mir (mirrorPpu a)).1.size := by
    simp only [ppuCell]; split_ifs <;> simp only [PpuBacking.size] <;> omega
  have hpal : (ppuCell mir (mirrorPpu a)).1 = .pal → (ppuCell mir (mirrorPpu a)).2 ≠ 0x10 ∧
      (ppuCell mir (mirrorPpu a)).2 ≠ 0x14 ∧ (ppuCell mir (mirrorPpu a)).2 ≠ 0x18 ∧
      (ppuCell mir (mirrorPpu a)).2 ≠ 0x1C := by
    simp only [ppuCell]; split_ifs <;> simp; omega
  refine inv_ppu s _ h ?_ ?_ ?_ ?_
  · intro b
    have : ({ ppuWrite mir s.ppu a v with vaddr := w } :
    Ppu).memory b = (ppuWrite mir s.ppu a v).memory b := by cases b <;> rfl
    rw [this, ppuWrite, PpuMemory.memory_setMemory]
    split
    · rename_i e; rw [e]; exact Memory.good_write _ _ (h.ppuArrays _) _ hcell _
    · exact h.ppuArrays b
  · simp only [ppuWrite, Ppu.setMemory]; split <;> exact h.oam
  · simp only [ppuWrite]
    generalize hc : ppuCell mir (mirrorPpu a) = c at *
    obtain ⟨b, n⟩ := c
    cases b <;> try exact h.hiddenCells
    intro x hx
    have := Memory.mem_write hx
    rcases this with e | e
    · exact h.hiddenCells x e
    · rw [e.1]; exact hpal rfl
  · simp only [ppuWrite, Ppu.setMemory]; split <;> exact ⟨rfl, rfl, rfl, rfl, rfl⟩

/-- A byte stored below program storage. -/
theorem inv_store (s : State) (h : Inv s) (m : Nat) (hm : m < 0x8000) (v : Byte) : Inv (storeCell s m v) := by
  have hl := cellOf_lt (show m < 0x10000 by omega)
  have hp : (cellOf m).1 ≠ .prg := by
    rw [cellOf_eq]; split_ifs <;> first | omega | simp
  constructor
  · simpa using h.config
  · simpa using h.unused
  · intro b
    simp only [storeCell, State.memory_setMemory]
    split
    · rename_i e; rw [e]; exact Memory.good_write _ _ (h.arrays _) _ hl _
    · exact h.arrays b
  · have : (storeCell s m v).memory .prg = s.memory .prg := by simp [storeCell, hp.symm]
    simp only [State.memory] at this
    simp [this, h.pristine]
  · simpa using h.ppuArrays
  · simpa using h.oam
  · simpa using h.hiddenCells
  · simpa using h.shift0
  · simpa using h.shift1
  · simpa using h.cycle
  · simpa using h.scanline
  · simpa using h.sprites
  · simpa using h.work
  · simpa using h.out

/-- A byte write keeps the invariant. -/
theorem inv_write (a : Addr) (v : Byte) (s : State) (h : Inv s) : Inv (cpuWrite a v s) := by
  rcases cpuWrite_cases a v s with e | ⟨hm, e⟩ | ⟨t, ht, e⟩ | ⟨hn, e⟩
  · rw [e]; exact h
  · rw [e]; exact inv_store s h _ hm v
  · rw [e]
    rcases dispatchWrite_cases ht with ⟨u, hu, hu'⟩ | hu | hu | hu <;> rw [hu]
    · rcases hu' with rfl | rfl | rfl | rfl | rfl | rfl | rfl
      · exact inv_ppu_regs s _ h (fun b => by cases b <;> rfl) rfl ⟨rfl, rfl, rfl, rfl, rfl⟩
      · exact inv_ppu_regs s _ h (fun b => by cases b <;> rfl) rfl ⟨rfl, rfl, rfl, rfl, rfl⟩
      · exact inv_ppu_regs s _ h (fun b => by cases b <;> rfl) rfl ⟨rfl, rfl, rfl, rfl, rfl⟩
      · exact inv_oam s h s.ppu.oamAddr.toNat s.ppu.oamAddr.isLt v _ (fun b => by cases b <;> rfl) rfl ⟨rfl, rfl, rfl, rfl, rfl⟩
      · simp only [Ppu.writeScroll]; split <;> exact inv_ppu_regs s _ h (fun b => by cases b <;> rfl) rfl ⟨rfl, rfl, rfl, rfl, rfl⟩
      · simp only [Ppu.writeAddress]; split <;> exact inv_ppu_regs s _ h (fun b => by cases b <;> rfl) rfl ⟨rfl, rfl, rfl, rfl, rfl⟩
      · exact inv_ppuWrite s h _ _ _ _
    · exact inv_dma v s h
    · exact inv_congr s _ h h.unused (fun b => by cases b <;> rfl) rfl rfl (Nat.zero_le _) (Nat.zero_le _) rfl
    · exact h
  · have hcell : cellOf (mirrorCpu s.cfg a) = (.fallback, mirrorCpu s.cfg a) := by simp [cellOf, hn]
    have h' : Inv (logAnomaly (mirrorCpu s.cfg a) .write s) := inv_congr s _ h h.unused (fun b => by cases b <;> rfl) rfl rfl h.shift0 h.shift1 rfl
    have e' : cpuWrite a v s = storeCell (logAnomaly (mirrorCpu s.cfg a) .write s) (mirrorCpu s.cfg a) v := by
      rw [e]; simp only [storeCell, hcell]; rfl
    rw [e']
    by_cases hm : mirrorCpu s.cfg a < 0x8000
    · exact inv_store _ h' _ hm v
    · exfalso
      rw [translateCpu_eq] at hn
      have := mirrorCpu_lt s.cfg a
      split_ifs at hn; omega

/-- Registers other than P changed. -/
theorem inv_pc (s : State) (h : Inv s) (a x y sp pc) : Inv { s with a := a, x := x, y := y, sp := sp, pc := pc } :=
  inv_congr s _ h h.unused (fun b => by cases b <;> rfl) rfl rfl h.shift0 h.shift1 rfl

/-- P changed, its unused flag set. -/
theorem inv_p (s : State) (h : Inv s) (a x y sp p pc) (hp : getFlag .U p = true) :
    Inv { s with a := a, x := x, y := y, sp := sp, p := p, pc := pc } :=
  inv_congr s _ h hp (fun b => by cases b <;> rfl) rfl rfl h.shift0 h.shift1 rfl

/-- Registers and interrupt state changed. -/
theorem inv_ctl (s : State) (h : Inv s) (a x y sp p pc r c n i) (hp : getFlag .U p = true) :
    Inv { s with a := a, x := x, y := y, sp := sp, p := p, pc := pc, retPc := r, ctx := c, nmiPending := n,
                 irqPending := i } :=
  inv_congr s _ h hp (fun b => by cases b <;> rfl) rfl rfl h.shift0 h.shift1 rfl

theorem inv_push (s : State) (h : Inv s) (v : Byte) : Inv (push v s) := by
  have := inv_write (stackAddr s.sp) v s h
  exact inv_pc _ this _ _ _ _ _

theorem inv_src (o : Source) (s : State) (h : Inv s) : Inv (readSource o s).2 := by
  cases o
  · exact h
  · exact inv_read _ _ h

theorem inv_rp (o : Place) (s : State) (h : Inv s) : Inv (readPlace o s).2 := by
  cases o
  · exact h
  · exact inv_read _ _ h

theorem inv_wp (o : Place) (v) (s : State) (h : Inv s) : Inv (writePlace o v s) := by
  cases o
  · exact inv_pc s h _ _ _ _ _
  · exact inv_write _ _ _ h

theorem inv_shift (f o) (s : State) (h : Inv s) : Inv (shiftOp f o s) := by
  refine inv_p _ (inv_wp o _ _ (inv_rp o s h)) _ _ _ _ _ _ ?_
  have := h.unused
  cases o <;> simpa [getFlag_shiftFlags] using this

theorem inv_pull (s : State) (h : Inv s) : Inv (pull s).2 := by rw [pull_eq]; exact inv_pc s h _ _ _ _ _

theorem inv_ret (s : State) (h : Inv s) : Inv (returnFromHandler s) := by
  exact inv_ctl _ (inv_pull s h) _ _ _ _ _ _ _ _ _ _ (getFlag_wholeByte .U _)

theorem inv_adc (o) (s : State) (h : Inv s) :
    Inv (adc o s) :=
  inv_p _ (inv_src o s h) _ _ _ _ _ _ (by simpa [getFlag_arithFlags] using h.unused)

theorem inv_sbc (o) (s : State) (h : Inv s) :
    Inv (sbc o s) :=
  inv_p _ (inv_src o s h) _ _ _ _ _ _ (by simpa [getFlag_arithFlags] using h.unused)

theorem inv_compareA (o) (s : State) (h : Inv s) :
    Inv (compareA o s) :=
  inv_p _ (inv_src o s h) _ _ _ _ _ _ (by simpa [getFlag_compareFlags] using h.unused)

theorem inv_compareX (o) (s : State) (h : Inv s) :
    Inv (compareX o s) :=
  inv_p _ (inv_src o s h) _ _ _ _ _ _ (by simpa [getFlag_compareFlags] using h.unused)

theorem inv_compareY (o) (s : State) (h : Inv s) :
    Inv (compareY o s) :=
  inv_p _ (inv_src o s h) _ _ _ _ _ _ (by simpa [getFlag_compareFlags] using h.unused)

theorem inv_inc (o) (s : State) (h : Inv s) :
    Inv (inc o s) :=
  inv_p _ (inv_write _ _ _ (inv_read o s h)) _ _ _ _ _ _ (by simpa using h.unused)

theorem inv_dec (o) (s : State) (h : Inv s) :
    Inv (dec o s) :=
  inv_p _ (inv_write _ _ _ (inv_read o s h)) _ _ _ _ _ _ (by simpa using h.unused)

theorem inv_incX (s : State) (h : Inv s) : Inv (incX s) := inv_p _ h _ _ _ _ _ _ (by simpa using h.unused)

theorem inv_incY (s : State) (h : Inv s) : Inv (incY s) := inv_p _ h _ _ _ _ _ _ (by simpa using h.unused)

theorem inv_decX (s : State) (h : Inv s) : Inv (decX s) := inv_p _ h _ _ _ _ _ _ (by simpa using h.unused)

theorem inv_decY (s : State) (h : Inv s) : Inv (decY s) := inv_p _ h _ _ _ _ _ _ (by simpa using h.unused)

theorem inv_andOp (o) (s : State) (h : Inv s) :
    Inv (andOp o s) :=
  inv_p _ (inv_src o s h) _ _ _ _ _ _ (by simpa using h.unused)

theorem inv_oraOp (o) (s : State) (h : Inv s) :
    Inv (oraOp o s) :=
  inv_p _ (inv_src o s h) _ _ _ _ _ _ (by simpa using h.unused)

theorem inv_eorOp (o) (s : State) (h : Inv s) :
    Inv (eorOp o s) :=
  inv_p _ (inv_src o s h) _ _ _ _ _ _ (by simpa using h.unused)

theorem inv_bitTest (o) (s : State) (h : Inv s) :
    Inv (bitTest o s) :=
  inv_p _ (inv_read o s h) _ _ _ _ _ _ (by simpa [getFlag_bitFlags] using h.unused)

theorem inv_lda (o) (s : State) (h : Inv s) :
    Inv (lda o s) :=
  inv_p _ (inv_src o s h) _ _ _ _ _ _ (by simpa using h.unused)

theorem inv_ldx (o) (s : State) (h : Inv s) :
    Inv (ldx o s) :=
  inv_p _ (inv_src o s h) _ _ _ _ _ _ (by simpa using h.unused)

theorem inv_ldy (o) (s : State) (h : Inv s) :
    Inv (ldy o s) :=
  inv_p _ (inv_src o s h) _ _ _ _ _ _ (by simpa using h.unused)

theorem inv_copyToA (v) (s : State) (h : Inv s) : Inv (copyToA v s) := inv_p _ h _ _ _ _ _ _ (by simpa using h.unused)

theorem inv_copyToX (v) (s : State) (h : Inv s) : Inv (copyToX v s) := inv_p _ h _ _ _ _ _ _ (by simpa using h.unused)

theorem inv_copyToY (v) (s : State) (h : Inv s) : Inv (copyToY v s) := inv_p _ h _ _ _ _ _ _ (by simpa using h.unused)

theorem inv_branch (b d) (s : State) (h : Inv s) : Inv (branch b d s) := by
  unfold branch; split
  · exact inv_pc s h _ _ _ _ _
  · exact h

theorem inv_storeA (o) (s : State) (h : Inv s) : Inv (storeA o s) := inv_write _ _ _ h

theorem inv_storeX (o) (s : State) (h : Inv s) : Inv (storeX o s) := inv_write _ _ _ h

theorem inv_storeY (o) (s : State) (h : Inv s) : Inv (storeY o s) := inv_write _ _ _ h

theorem inv_asl (o) (s : State) (h : Inv s) : Inv (asl o s) := inv_shift _ _ _ h

theorem inv_lsr (o) (s : State) (h : Inv s) : Inv (lsr o s) := inv_shift _ _ _ h

theorem inv_rol (o) (s : State) (h : Inv s) : Inv (rol o s) := inv_shift _ _ _ h

theorem inv_ror (o) (s : State) (h : Inv s) : Inv (ror o s) := inv_shift _ _ _ h

theorem inv_setPc (v) (s : State) (h : Inv s) : Inv (s.setPc v) := inv_pc s h _ _ _ _ _

theorem inv_setSp (v) (s : State) (h : Inv s) : Inv (s.setSp v) := inv_pc s h _ _ _ _ _

theorem inv_breakRequest (s : State) (h : Inv s) : Inv (breakRequest s) := by
  simp only [breakRequest]; split
  · exact h
  · exact inv_ctl s h _ _ _ _ _ _ _ _ _ _ (by simpa using h.unused)

theorem inv_jsr (w) (s : State) (h : Inv s) :
    Inv (jumpSubroutine w s) :=
  inv_pc _ (inv_push _ (inv_push _ h _) _) _ _ _ _ _

theorem inv_rts (s : State) (h : Inv s) : Inv (returnSubroutine s) := inv_pc _ (inv_pull _ (inv_pull s h)) _ _ _ _ _

theorem inv_jmpi (w) (s : State) (h : Inv s) :
    Inv (jumpThrough w s) :=
  inv_pc _ (inv_read _ _ (inv_read _ _ h)) _ _ _ _ _

theorem inv_pullA (s : State) (h : Inv s) :
    Inv (pullA s) :=
  inv_p _ (inv_pull s h) _ _ _ _ _ _ (by simpa using h.unused)

theorem inv_pullP (s : State) (h : Inv s) : Inv (pullP s) := inv_p _ (inv_pull s h) _ _ _ _ _ _ (by simp)

theorem inv_writeFlag (f b) (s : State) (h : Inv s) (hf : f ≠ .U) :
    Inv (writeFlag f b s) :=
  inv_p _ h _ _ _ _ _ _ (by have := h.unused; simpa [getFlag_setFlag, hf.symm] using this)

/-- Every instruction keeps the invariant. -/
theorem inv_exec (i : Instr) (s t : State) (h : Inv s) (he : exec i s = .next t) : Inv t := by
  cases i
  case rti =>
    rw [exec_rti] at he; split at he
    · cases he
    · cases he; exact inv_ret s h
  all_goals
    simp only [exec_adcImm, exec_adcZp, exec_adcZpx, exec_adcAbs, exec_adcAbx, exec_adcAby, exec_adcIzx,
      exec_adcIzy, exec_andImm, exec_andZp, exec_andZpx, exec_andAbs, exec_andAbx, exec_andAby, exec_andIzx,
      exec_andIzy, exec_aslAcc, exec_aslZp, exec_aslZpx, exec_aslAbs, exec_aslAbx, exec_bcc, exec_bcs, exec_beq,
      exec_bitZp, exec_bitAbs, exec_bmi, exec_bne, exec_bpl, exec_brk, exec_bvc, exec_bvs, exec_clc, exec_cld,
      exec_cli, exec_clv, exec_cmpImm, exec_cmpZp, exec_cmpZpx, exec_cmpAbs, exec_cmpAbx, exec_cmpAby,
      exec_cmpIzx, exec_cmpIzy, exec_cpxImm, exec_cpxZp, exec_cpxAbs, exec_cpyImm, exec_cpyZp, exec_cpyAbs,
      exec_decZp, exec_decZpx, exec_decAbs, exec_decAbx, exec_dex, exec_dey, exec_eorImm, exec_eorZp,
      exec_eorZpx, exec_eorAbs, exec_eorAbx, exec_eorAby, exec_eorIzx, exec_eorIzy, exec_incZp, exec_incZpx,
      exec_incAbs, exec_incAbx, exec_inx, exec_iny, exec_jmpAbs, exec_jmpInd, exec_jsr, exec_ldaImm, exec_ldaZp,
      exec_ldaZpx, exec_ldaAbs, exec_ldaAbx, exec_ldaAby, exec_ldaIzx, exec_ldaIzy, exec_ldxImm, exec_ldxZp,
      exec_ldxZpy, exec_ldxAbs, exec_ldxAby, exec_ldyImm, exec_ldyZp, exec_ldyZpx, exec_ldyAbs, exec_ldyAbx,
      exec_lsrAcc, exec_lsrZp, exec_lsrZpx, exec_lsrAbs, exec_lsrAbx, exec_nop, exec_oraImm, exec_oraZp,
      exec_oraZpx, exec_oraAbs, exec_oraAbx, exec_oraAby, exec_oraIzx, exec_oraIzy, exec_pha, exec_php,
      exec_pla, exec_plp, exec_rolAcc, exec_rolZp, exec_rolZpx, exec_rolAbs, exec_rolAbx, exec_rorAcc,
      exec_rorZp, exec_rorZpx, exec_rorAbs, exec_rorAbx, exec_rts, exec_sbcImm, exec_sbcZp, exec_sbcZpx,
      exec_sbcAbs, exec_sbcAbx, exec_sbcAby, exec_sbcIzx, exec_sbcIzy, exec_sec, exec_sed, exec_sei, exec_staZp,
      exec_staZpx, exec_staAbs, exec_staAbx, exec_staAby, exec_staIzx, exec_staIzy, exec_stxZp, exec_stxZpy,
      exec_stxAbs, exec_styZp, exec_styZpx, exec_styAbs, exec_tax, exec_tay, exec_tsx, exec_txa, exec_txs,
      exec_tya, Host.Outcome.next.injEq] at he
    subst he
    with_reducible first
    | exact inv_adc _ _ h
    | exact inv_sbc _ _ h
    | exact inv_compareA _ _ h
    | exact inv_compareX _ _ h
    | exact inv_compareY _ _ h
    | exact inv_inc _ _ h
    | exact inv_dec _ _ h
    | exact inv_incX _ h
    | exact inv_incY _ h
    | exact inv_decX _ h
    | exact inv_decY _ h
    | exact inv_andOp _ _ h
    | exact inv_oraOp _ _ h
    | exact inv_eorOp _ _ h
    | exact inv_bitTest _ _ h
    | exact inv_lda _ _ h
    | exact inv_ldx _ _ h
    | exact inv_ldy _ _ h
    | exact inv_copyToA _ _ h
    | exact inv_copyToX _ _ h
    | exact inv_copyToY _ _ h
    | exact inv_branch _ _ _ h
    | exact inv_setPc _ _ h
    | exact inv_setSp _ _ h
    | exact inv_breakRequest _ h
    | exact inv_jsr _ _ h
    | exact inv_rts _ h
    | exact inv_jmpi _ _ h
    | exact inv_pullA _ h
    | exact inv_pullP _ h
    | exact inv_write _ _ _ h
    | exact inv_storeA _ _ h
    | exact inv_storeX _ _ h
    | exact inv_storeY _ _ h
    | exact inv_asl _ _ h
    | exact inv_lsr _ _ h
    | exact inv_rol _ _ h
    | exact inv_ror _ _ h
    | exact inv_push _ h _
    | exact inv_writeFlag _ _ _ h (by decide)
    | exact h

theorem bgRowFrom_length (s : State) (y x : Nat) (r : List Rgba) : (bgRowFrom s y x r).length = r.length := by
  induction r generalizing x with
  | nil => rfl
  | cons q r ih => simp [bgRowFrom, ih]

theorem drawColumn_length (s : State) (y i q acc c) : (drawColumn s y i q acc c).row.length = acc.row.length := by
  simp only [drawColumn]; split <;> simp

theorem drawColumns_length (s : State) (y i q) (l : List Nat) : ∀ acc :
    SpriteRow, (l.foldl (drawColumn s y i q) acc).row.length = acc.row.length := by
  induction l with
  | nil => intro; rfl
  | cons c l ih => intro acc; simp [ih, drawColumn_length]

theorem drawSprite_length (s : State) (y b acc i) : (drawSprite s y b acc i).row.length = acc.row.length := by
  simp only [drawSprite]; split
  · exact drawColumns_length ..
  · rfl

theorem drawSprites_length (s : State) (y b) (l : List Nat) : ∀ acc :
    SpriteRow, (l.foldl (drawSprite s y b) acc).row.length = acc.row.length := by
  induction l with
  | nil => intro; rfl
  | cons c l ih => intro acc; simp [ih, drawSprite_length]

/-- A composed row has WIDTH pixels. -/
theorem composeRow_length (s : State) (y : Nat) : (composeRow s y).row.length = s.cfg.width := by
  simp only [composeRow, spritePass, background]
  split <;> split <;> simp only [drawSprites_length, bgRowFrom_length, List.length_replicate]

theorem shaped_set (c : Config) (f : Frame) (h : Frame.shaped c f) (y : Nat) (r : List Rgba) (hr :
    r.length = c.width) : Frame.shaped c (f.set y r) := by
  refine ⟨by simpa using h.1, fun row hrow => ?_⟩
  rcases List.mem_or_eq_of_mem_set hrow with e | e
  · exact h.2 row e
  · rw [e]; exact hr

/-- PPU counters and frames changed inside their ranges. -/
theorem inv_frame (s t : State) (h : Inv s) (e : t.p = s.p ∧ (∀ b, t.memory b = s.memory b) ∧
    t.prgPristine = s.prgPristine ∧ (∀ b, t.ppu.memory b = s.ppu.memory b) ∧ t.ppu.oam = s.ppu.oam ∧
    t.shiftIdx0 = s.shiftIdx0 ∧ t.shiftIdx1 = s.shiftIdx1 ∧ t.cfg = s.cfg)
   (hc : t.ppu.cycle < s.cfg.cyclesPerScanline) (hl : t.ppu.scanline < s.cfg.totalScanlines) (hs :
       t.ppu.spriteCount ≤ 64) (hw : Frame.shaped s.cfg t.ppu.work) (ho : Frame.shaped s.cfg t.ppu.out) : Inv t := by
  obtain ⟨e1, e2, e3, e4, e5, e6, e7, e8⟩ := e
  constructor
  · rw [e8]; exact h.config
  · rw [e1]; exact h.unused
  · intro b; rw [e2]; exact h.arrays b
  · rw [e3, h.pristine]; exact (e2 .prg).symm
  · intro b; rw [e4]; exact h.ppuArrays b
  · rw [e5]; exact h.oam
  · have := e4 .pal; simp only [Ppu.memory] at this; rw [this]; exact h.hiddenCells
  · rw [e6]; exact h.shift0
  · rw [e7]; exact h.shift1
  · rw [e8]; exact hc
  · rw [e8]; exact hl
  · exact hs
  · rw [e8]; exact hw
  · rw [e8]; exact ho

/-- The work of a line keeps the sprite count and the frames in their ranges. -/
theorem lineWork_ranges (l : Nat) (s : State) (hs : s.ppu.spriteCount ≤ 64) (hw : Frame.shaped s.cfg s.ppu.work)
    (ho : Frame.shaped s.cfg s.ppu.out) :
    (lineWork l s).ppu.spriteCount ≤ 64 ∧ Frame.shaped s.cfg (lineWork l s).ppu.work ∧
    Frame.shaped s.cfg (lineWork l s).ppu.out := by
  have e : ∀ t : State, (startVblank t).ppu.spriteCount = t.ppu.spriteCount ∧
      (startVblank t).ppu.work = t.ppu.work ∧ (startVblank t).ppu.out = t.ppu.out := fun t => ⟨rfl, rfl, rfl⟩
  have key : ∀ t : State, t = (if l < s.cfg.visibleHeight then renderScanline l s
    else if l = s.cfg.visibleHeight then finishFrame s else s) → t.ppu.spriteCount ≤ 64 ∧
    Frame.shaped s.cfg t.ppu.work ∧ Frame.shaped s.cfg t.ppu.out := by
    intro t ht; subst ht
    split
    · have hset := shaped_set _ _ hw l _ (composeRow_length s l)
      refine ⟨?_, ?_, ?_⟩
      · simp only [renderScanline, State.setPpu]
        split
        · exact Nat.le_trans (List.countP_le_length) (by simp)
        · exact hs
      · simp only [renderScanline, State.setPpu]
        split <;> exact hset
      · simp only [renderScanline, State.setPpu]
        split <;> exact ho
    · split
      · refine ⟨hs, hw, ?_, ?_⟩
        · simpa [finishFrame] using hw.1
        · intro r hr; exact hw.2 r (by simpa [finishFrame] using hr)
      · exact ⟨hs, hw, ho⟩
  simp only [lineWork]
  split
  · obtain ⟨a, b, c⟩ := e (if l < s.cfg.visibleHeight then renderScanline l s
    else if l = s.cfg.visibleHeight then finishFrame s else s)
    rw [a, b, c]; exact key _ rfl
  · exact key _ rfl

theorem memory_congr (s t : State) (h : t.zp = s.zp ∧ t.stk = s.stk ∧ t.ram = s.ram ∧ t.sram = s.sram ∧
    t.prg = s.prg ∧ t.fallback = s.fallback) (b) : t.memory b = s.memory b := by
  obtain ⟨h1, h2, h3, h4, h5, h6⟩ := h
  cases b <;> assumption

theorem ppu_memory_congr (s t : Ppu) (h : t.pattern0 = s.pattern0 ∧ t.pattern1 = s.pattern1 ∧
    t.nametable0 = s.nametable0 ∧ t.nametable1 = s.nametable1 ∧ t.pal = s.pal) (b) : t.memory b = s.memory b := by
  obtain ⟨h1, h2, h3, h4, h5⟩ := h
  cases b <;> assumption

/-- So does the end of a line. -/
theorem finishLine_ranges (l : Nat) (s : State) (hl : l < s.cfg.totalScanlines) (hs : s.ppu.spriteCount ≤ 64) (hw :
    Frame.shaped s.cfg s.ppu.work) (ho : Frame.shaped s.cfg s.ppu.out) :
    (finishLine l s).ppu.scanline < s.cfg.totalScanlines ∧ (finishLine l s).ppu.spriteCount ≤ 64 ∧
    Frame.shaped s.cfg (finishLine l s).ppu.work ∧ Frame.shaped s.cfg (finishLine l s).ppu.out := by
  obtain ⟨a, b, c⟩ := lineWork_ranges l s hs hw ho
  simp only [finishLine]
  split
  · exact ⟨by show 0 < _; omega, a, b, c⟩
  · exact ⟨by show l + 1 < _; omega, a, b, c⟩

/-- A PPU cycle keeps the invariant. -/
theorem inv_cycle (s : State) (h : Inv s) : Inv (ppuCycle s) := by
  have hr : (ppuCycle s).ppu.cycle < s.cfg.cyclesPerScanline ∧ (ppuCycle s).ppu.scanline < s.cfg.totalScanlines ∧
      (ppuCycle s).ppu.spriteCount ≤ 64 ∧ Frame.shaped s.cfg (ppuCycle s).ppu.work ∧
      Frame.shaped s.cfg (ppuCycle s).ppu.out := by
    by_cases he : atLineEnd s
    · rw [ppuCycle_lineEnd s he]
      refine ⟨?_, finishLine_ranges s.ppu.scanline (s.setPpu _) h.scanline h.sprites h.work h.out⟩
      simpa using h.config.1
    · rw [ppuCycle_inside s (by simpa using he)]
      exact ⟨by simpa [atLineEnd] using he, h.scanline, h.sprites, h.work, h.out⟩
  obtain ⟨h1, h2, h3, h4, h5⟩ := hr
  exact inv_frame s _ h ⟨by simp, memory_congr s _ (by simp), by simp, ppu_memory_congr _ _
      (by simp), by simp, by simp, by simp, by simp⟩ h1 h2 h3 h4 h5

/-- The state a reset leaves is in the invariant. -/
theorem inv_boot (c : Config) (hc : c.WellFormed) (prg : Memory) (hp : prg.good 0x8000) (ctl) :
    Inv (State.boot c prg ctl) := by
  have nil : ∀ n, Memory.good n [] := fun n => ⟨⟨List.Pairwise.nil, by simp⟩, by simp [Memory.within]⟩
  constructor
  · exact hc
  · show getFlag .U resetP = true; decide
  · intro b; cases b <;> first | exact hp | exact nil _
  · rfl
  · intro b; cases b <;> first | exact Memory.ofBytes_good _ _ | exact nil _
  · exact nil _
  · simp [State.boot, Ppu.boot]
  · exact Nat.zero_le _
  · exact Nat.zero_le _
  · exact hc.1
  · exact Nat.lt_of_le_of_lt (Nat.zero_le _) hc.2.1
  · exact Nat.zero_le _
  · refine ⟨List.length_replicate, fun r hr => ?_⟩
    rw [List.eq_of_mem_replicate hr]; exact List.length_replicate
  · refine ⟨List.length_replicate, fun r hr => ?_⟩
    rw [List.eq_of_mem_replicate hr]; exact List.length_replicate

theorem inv_restart (s : State) (h : Inv s) : Inv (serveRestart s) := by
  unfold serveRestart; split
  · exact inv_boot _ h.config _ (by rw [h.pristine]; exact h.arrays .prg) _
  · exact h

theorem inv_enter (s : State) (h : Inv s) : Inv (enterInterrupt s) := by
  have h1 : Inv (enterHandler (interruptKind s) s) := by
    refine inv_ctl _ (inv_push _ (inv_ctl s h s.a s.x s.y s.sp s.p s.pc s.retPc s.ctx false false h.unused) _) _ _ _ _ _ _ _ _ _ _ ?_
    have h2 := inv_push _ (inv_ctl s h s.a s.x s.y s.sp s.p s.pc s.retPc s.ctx false false h.unused) s.p
    have := h2.unused
    simpa using this
  exact inv_pc _ (inv_read _ _ (inv_read _ _ (inv_ctl _ h1 _ _ _ _ _ _ _ _ _ _ h1.unused))) _ _ _ _ _

theorem inv_serve (s : State) (h : Inv s) : Inv (serveInterrupts s) := by
  unfold serveInterrupts; split
  · split
    · exact inv_enter s h
    · exact inv_ret s h
  · exact h

/-- The checkpoint keeps the invariant. -/
theorem inv_sync (n) (s : State) (h : Inv s) : Inv (sync n s) :=
  inv_restart _ (inv_serve _ (ppuAdvance_induct Inv inv_cycle _ _ h))

/-- The reads of a fetch keep the invariant. -/
theorem inv_fetch (s : State) (f : Fetched) (h : Inv s) (hf : fetch s = .ok f) : Inv f.state := by
  have h1 := inv_read s.pc s h
  have h2 := inv_read (s.pc + 1) _ h1
  have h3 := inv_read (s.pc + 2) _ h2
  simp only [fetch] at hf
  split at hf
  · cases hf
  · split at hf
    · cases hf
    · split at hf
      · cases hf; exact h1
      · split at hf
        · cases hf
        · split at hf
          · cases hf; exact h2
          · split at hf
            · cases hf
            · cases hf; exact h3

end Sys2Proof.Machine
end

