-- ==== Sys2Proof/Laws/PerInstr.lean ====
section
/-! SUPPORT. The per-instruction family `TableRow`: the row the decoder finds for an instruction's opcode byte
has the instruction's own mnemonic and format, and R137 has that cell. -/

namespace Sys2Proof.Laws.TableRow

/-- The decoder's row for the opcode byte of `i` is the row of `i`, and it is a cell of R137. -/
def Statement (i : Instr) : Prop :=
  (lookupOpcode i.opcode).map (fun r => (r.mnemonic, r.format)) = some (i.mnemonic, i.mode.format) ∧
  i.WellFormed

theorem adcImm (v : Byte) : Statement (.adcImm v) := ⟨rfl, rfl⟩
theorem adcZp (z : Byte) : Statement (.adcZp z) := ⟨rfl, rfl⟩
theorem adcZpx (z : Byte) : Statement (.adcZpx z) := ⟨rfl, rfl⟩
theorem adcAbs (w : Addr) : Statement (.adcAbs w) := ⟨rfl, rfl⟩
theorem adcAbx (w : Addr) : Statement (.adcAbx w) := ⟨rfl, rfl⟩
theorem adcAby (w : Addr) : Statement (.adcAby w) := ⟨rfl, rfl⟩
theorem adcIzx (z : Byte) : Statement (.adcIzx z) := ⟨rfl, rfl⟩
theorem adcIzy (z : Byte) : Statement (.adcIzy z) := ⟨rfl, rfl⟩
theorem andImm (v : Byte) : Statement (.andImm v) := ⟨rfl, rfl⟩
theorem andZp (z : Byte) : Statement (.andZp z) := ⟨rfl, rfl⟩
theorem andZpx (z : Byte) : Statement (.andZpx z) := ⟨rfl, rfl⟩
theorem andAbs (w : Addr) : Statement (.andAbs w) := ⟨rfl, rfl⟩
theorem andAbx (w : Addr) : Statement (.andAbx w) := ⟨rfl, rfl⟩
theorem andAby (w : Addr) : Statement (.andAby w) := ⟨rfl, rfl⟩
theorem andIzx (z : Byte) : Statement (.andIzx z) := ⟨rfl, rfl⟩
theorem andIzy (z : Byte) : Statement (.andIzy z) := ⟨rfl, rfl⟩
theorem aslAcc : Statement (.aslAcc) := ⟨rfl, rfl⟩
theorem aslZp (z : Byte) : Statement (.aslZp z) := ⟨rfl, rfl⟩
theorem aslZpx (z : Byte) : Statement (.aslZpx z) := ⟨rfl, rfl⟩
theorem aslAbs (w : Addr) : Statement (.aslAbs w) := ⟨rfl, rfl⟩
theorem aslAbx (w : Addr) : Statement (.aslAbx w) := ⟨rfl, rfl⟩
theorem bcc (d : Byte) : Statement (.bcc d) := ⟨rfl, rfl⟩
theorem bcs (d : Byte) : Statement (.bcs d) := ⟨rfl, rfl⟩
theorem beq (d : Byte) : Statement (.beq d) := ⟨rfl, rfl⟩
theorem bitZp (z : Byte) : Statement (.bitZp z) := ⟨rfl, rfl⟩
theorem bitAbs (w : Addr) : Statement (.bitAbs w) := ⟨rfl, rfl⟩
theorem bmi (d : Byte) : Statement (.bmi d) := ⟨rfl, rfl⟩
theorem bne (d : Byte) : Statement (.bne d) := ⟨rfl, rfl⟩
theorem bpl (d : Byte) : Statement (.bpl d) := ⟨rfl, rfl⟩
theorem brk : Statement (.brk) := ⟨rfl, rfl⟩
theorem bvc (d : Byte) : Statement (.bvc d) := ⟨rfl, rfl⟩
theorem bvs (d : Byte) : Statement (.bvs d) := ⟨rfl, rfl⟩
theorem clc : Statement (.clc) := ⟨rfl, rfl⟩
theorem cld : Statement (.cld) := ⟨rfl, rfl⟩
theorem cli : Statement (.cli) := ⟨rfl, rfl⟩
theorem clv : Statement (.clv) := ⟨rfl, rfl⟩
theorem cmpImm (v : Byte) : Statement (.cmpImm v) := ⟨rfl, rfl⟩
theorem cmpZp (z : Byte) : Statement (.cmpZp z) := ⟨rfl, rfl⟩
theorem cmpZpx (z : Byte) : Statement (.cmpZpx z) := ⟨rfl, rfl⟩
theorem cmpAbs (w : Addr) : Statement (.cmpAbs w) := ⟨rfl, rfl⟩
theorem cmpAbx (w : Addr) : Statement (.cmpAbx w) := ⟨rfl, rfl⟩
theorem cmpAby (w : Addr) : Statement (.cmpAby w) := ⟨rfl, rfl⟩
theorem cmpIzx (z : Byte) : Statement (.cmpIzx z) := ⟨rfl, rfl⟩
theorem cmpIzy (z : Byte) : Statement (.cmpIzy z) := ⟨rfl, rfl⟩
theorem cpxImm (v : Byte) : Statement (.cpxImm v) := ⟨rfl, rfl⟩
theorem cpxZp (z : Byte) : Statement (.cpxZp z) := ⟨rfl, rfl⟩
theorem cpxAbs (w : Addr) : Statement (.cpxAbs w) := ⟨rfl, rfl⟩
theorem cpyImm (v : Byte) : Statement (.cpyImm v) := ⟨rfl, rfl⟩
theorem cpyZp (z : Byte) : Statement (.cpyZp z) := ⟨rfl, rfl⟩
theorem cpyAbs (w : Addr) : Statement (.cpyAbs w) := ⟨rfl, rfl⟩
theorem decZp (z : Byte) : Statement (.decZp z) := ⟨rfl, rfl⟩
theorem decZpx (z : Byte) : Statement (.decZpx z) := ⟨rfl, rfl⟩
theorem decAbs (w : Addr) : Statement (.decAbs w) := ⟨rfl, rfl⟩
theorem decAbx (w : Addr) : Statement (.decAbx w) := ⟨rfl, rfl⟩
theorem dex : Statement (.dex) := ⟨rfl, rfl⟩
theorem dey : Statement (.dey) := ⟨rfl, rfl⟩
theorem eorImm (v : Byte) : Statement (.eorImm v) := ⟨rfl, rfl⟩
theorem eorZp (z : Byte) : Statement (.eorZp z) := ⟨rfl, rfl⟩
theorem eorZpx (z : Byte) : Statement (.eorZpx z) := ⟨rfl, rfl⟩
theorem eorAbs (w : Addr) : Statement (.eorAbs w) := ⟨rfl, rfl⟩
theorem eorAbx (w : Addr) : Statement (.eorAbx w) := ⟨rfl, rfl⟩
theorem eorAby (w : Addr) : Statement (.eorAby w) := ⟨rfl, rfl⟩
theorem eorIzx (z : Byte) : Statement (.eorIzx z) := ⟨rfl, rfl⟩
theorem eorIzy (z : Byte) : Statement (.eorIzy z) := ⟨rfl, rfl⟩
theorem incZp (z : Byte) : Statement (.incZp z) := ⟨rfl, rfl⟩
theorem incZpx (z : Byte) : Statement (.incZpx z) := ⟨rfl, rfl⟩
theorem incAbs (w : Addr) : Statement (.incAbs w) := ⟨rfl, rfl⟩
theorem incAbx (w : Addr) : Statement (.incAbx w) := ⟨rfl, rfl⟩
theorem inx : Statement (.inx) := ⟨rfl, rfl⟩
theorem iny : Statement (.iny) := ⟨rfl, rfl⟩
theorem jmpAbs (w : Addr) : Statement (.jmpAbs w) := ⟨rfl, rfl⟩
theorem jmpInd (w : Addr) : Statement (.jmpInd w) := ⟨rfl, rfl⟩
theorem jsr (w : Addr) : Statement (.jsr w) := ⟨rfl, rfl⟩
theorem ldaImm (v : Byte) : Statement (.ldaImm v) := ⟨rfl, rfl⟩
theorem ldaZp (z : Byte) : Statement (.ldaZp z) := ⟨rfl, rfl⟩
theorem ldaZpx (z : Byte) : Statement (.ldaZpx z) := ⟨rfl, rfl⟩
theorem ldaAbs (w : Addr) : Statement (.ldaAbs w) := ⟨rfl, rfl⟩
theorem ldaAbx (w : Addr) : Statement (.ldaAbx w) := ⟨rfl, rfl⟩
theorem ldaAby (w : Addr) : Statement (.ldaAby w) := ⟨rfl, rfl⟩
theorem ldaIzx (z : Byte) : Statement (.ldaIzx z) := ⟨rfl, rfl⟩
theorem ldaIzy (z : Byte) : Statement (.ldaIzy z) := ⟨rfl, rfl⟩
theorem ldxImm (v : Byte) : Statement (.ldxImm v) := ⟨rfl, rfl⟩
theorem ldxZp (z : Byte) : Statement (.ldxZp z) := ⟨rfl, rfl⟩
theorem ldxZpy (z : Byte) : Statement (.ldxZpy z) := ⟨rfl, rfl⟩
theorem ldxAbs (w : Addr) : Statement (.ldxAbs w) := ⟨rfl, rfl⟩
theorem ldxAby (w : Addr) : Statement (.ldxAby w) := ⟨rfl, rfl⟩
theorem ldyImm (v : Byte) : Statement (.ldyImm v) := ⟨rfl, rfl⟩
theorem ldyZp (z : Byte) : Statement (.ldyZp z) := ⟨rfl, rfl⟩
theorem ldyZpx (z : Byte) : Statement (.ldyZpx z) := ⟨rfl, rfl⟩
theorem ldyAbs (w : Addr) : Statement (.ldyAbs w) := ⟨rfl, rfl⟩
theorem ldyAbx (w : Addr) : Statement (.ldyAbx w) := ⟨rfl, rfl⟩
theorem lsrAcc : Statement (.lsrAcc) := ⟨rfl, rfl⟩
theorem lsrZp (z : Byte) : Statement (.lsrZp z) := ⟨rfl, rfl⟩
theorem lsrZpx (z : Byte) : Statement (.lsrZpx z) := ⟨rfl, rfl⟩
theorem lsrAbs (w : Addr) : Statement (.lsrAbs w) := ⟨rfl, rfl⟩
theorem lsrAbx (w : Addr) : Statement (.lsrAbx w) := ⟨rfl, rfl⟩
theorem nop : Statement (.nop) := ⟨rfl, rfl⟩
theorem oraImm (v : Byte) : Statement (.oraImm v) := ⟨rfl, rfl⟩
theorem oraZp (z : Byte) : Statement (.oraZp z) := ⟨rfl, rfl⟩
theorem oraZpx (z : Byte) : Statement (.oraZpx z) := ⟨rfl, rfl⟩
theorem oraAbs (w : Addr) : Statement (.oraAbs w) := ⟨rfl, rfl⟩
theorem oraAbx (w : Addr) : Statement (.oraAbx w) := ⟨rfl, rfl⟩
theorem oraAby (w : Addr) : Statement (.oraAby w) := ⟨rfl, rfl⟩
theorem oraIzx (z : Byte) : Statement (.oraIzx z) := ⟨rfl, rfl⟩
theorem oraIzy (z : Byte) : Statement (.oraIzy z) := ⟨rfl, rfl⟩
theorem pha : Statement (.pha) := ⟨rfl, rfl⟩
theorem php : Statement (.php) := ⟨rfl, rfl⟩
theorem pla : Statement (.pla) := ⟨rfl, rfl⟩
theorem plp : Statement (.plp) := ⟨rfl, rfl⟩
theorem rolAcc : Statement (.rolAcc) := ⟨rfl, rfl⟩
theorem rolZp (z : Byte) : Statement (.rolZp z) := ⟨rfl, rfl⟩
theorem rolZpx (z : Byte) : Statement (.rolZpx z) := ⟨rfl, rfl⟩
theorem rolAbs (w : Addr) : Statement (.rolAbs w) := ⟨rfl, rfl⟩
theorem rolAbx (w : Addr) : Statement (.rolAbx w) := ⟨rfl, rfl⟩
theorem rorAcc : Statement (.rorAcc) := ⟨rfl, rfl⟩
theorem rorZp (z : Byte) : Statement (.rorZp z) := ⟨rfl, rfl⟩
theorem rorZpx (z : Byte) : Statement (.rorZpx z) := ⟨rfl, rfl⟩
theorem rorAbs (w : Addr) : Statement (.rorAbs w) := ⟨rfl, rfl⟩
theorem rorAbx (w : Addr) : Statement (.rorAbx w) := ⟨rfl, rfl⟩
theorem rti : Statement (.rti) := ⟨rfl, rfl⟩
theorem rts : Statement (.rts) := ⟨rfl, rfl⟩
theorem sbcImm (v : Byte) : Statement (.sbcImm v) := ⟨rfl, rfl⟩
theorem sbcZp (z : Byte) : Statement (.sbcZp z) := ⟨rfl, rfl⟩
theorem sbcZpx (z : Byte) : Statement (.sbcZpx z) := ⟨rfl, rfl⟩
theorem sbcAbs (w : Addr) : Statement (.sbcAbs w) := ⟨rfl, rfl⟩
theorem sbcAbx (w : Addr) : Statement (.sbcAbx w) := ⟨rfl, rfl⟩
theorem sbcAby (w : Addr) : Statement (.sbcAby w) := ⟨rfl, rfl⟩
theorem sbcIzx (z : Byte) : Statement (.sbcIzx z) := ⟨rfl, rfl⟩
theorem sbcIzy (z : Byte) : Statement (.sbcIzy z) := ⟨rfl, rfl⟩
theorem sec : Statement (.sec) := ⟨rfl, rfl⟩
theorem sed : Statement (.sed) := ⟨rfl, rfl⟩
theorem sei : Statement (.sei) := ⟨rfl, rfl⟩
theorem staZp (z : Byte) : Statement (.staZp z) := ⟨rfl, rfl⟩
theorem staZpx (z : Byte) : Statement (.staZpx z) := ⟨rfl, rfl⟩
theorem staAbs (w : Addr) : Statement (.staAbs w) := ⟨rfl, rfl⟩
theorem staAbx (w : Addr) : Statement (.staAbx w) := ⟨rfl, rfl⟩
theorem staAby (w : Addr) : Statement (.staAby w) := ⟨rfl, rfl⟩
theorem staIzx (z : Byte) : Statement (.staIzx z) := ⟨rfl, rfl⟩
theorem staIzy (z : Byte) : Statement (.staIzy z) := ⟨rfl, rfl⟩
theorem stxZp (z : Byte) : Statement (.stxZp z) := ⟨rfl, rfl⟩
theorem stxZpy (z : Byte) : Statement (.stxZpy z) := ⟨rfl, rfl⟩
theorem stxAbs (w : Addr) : Statement (.stxAbs w) := ⟨rfl, rfl⟩
theorem styZp (z : Byte) : Statement (.styZp z) := ⟨rfl, rfl⟩
theorem styZpx (z : Byte) : Statement (.styZpx z) := ⟨rfl, rfl⟩
theorem styAbs (w : Addr) : Statement (.styAbs w) := ⟨rfl, rfl⟩
theorem tax : Statement (.tax) := ⟨rfl, rfl⟩
theorem tay : Statement (.tay) := ⟨rfl, rfl⟩
theorem tsx : Statement (.tsx) := ⟨rfl, rfl⟩
theorem txa : Statement (.txa) := ⟨rfl, rfl⟩
theorem txs : Statement (.txs) := ⟨rfl, rfl⟩
theorem tya : Statement (.tya) := ⟨rfl, rfl⟩

end Sys2Proof.Laws.TableRow
end

