-- ==== Sys2Proof/Laws/Render.lean ====
section
/-! SUPPORT. What one scanline looks like pixel by pixel: the background row, the columns of one sprite, a whole sprite
pass, and the sprite-zero-hit flag a pass leaves. -/

namespace Sys2Proof.Machine

/-! ## Bits as arithmetic -/

/-- A bit of a byte as a quotient and a remainder. -/
theorem getLsbD_toNat_eq_div (b : Byte) (n : Nat) : (b.getLsbD n).toNat = b.toNat / 2 ^ n % 2 := by
  rw [BitVec.getLsbD, Nat.testBit, Nat.shiftRight_eq_div_pow]
  rcases Nat.mod_two_eq_zero_or_one (b.toNat / 2 ^ n) with h | h <;> simp [Nat.and_comm 1, h, Nat.and_one_is_mod]

/-- The two bits of the nametable index. -/
theorem nametable_bits (n : BitVec 2) :
    (n.getLsbD 0).toNat = n.toNat % 2 ∧ (n.getLsbD 1).toNat = n.toNat / 2 := by
  revert n
  decide

/-- A byte of the chosen pattern table. -/
theorem pattern_eq (u : Ppu) (t : Bool) (off : Nat) :
    u.pattern t off = (if t then u.pattern1 else u.pattern0).read off := by
  cases t <;> rfl

/-- The pixel index of a tile row, from its two plane bytes (R436). -/
theorem tilePixel_eq (u : Ppu) (t : Bool) (tile fy b : Nat) :
    u.tilePixel t tile fy b =
      ((if t then u.pattern1 else u.pattern0).read (tile * 16 + fy + 8)).toNat / 2 ^ b % 2 * 2 +
        ((if t then u.pattern1 else u.pattern0).read (tile * 16 + fy)).toNat / 2 ^ b % 2 := by
  simp only [Ppu.tilePixel, getLsbD_toNat_eq_div, pattern_eq]

/-! ## Background -/

/-- Pixel `x` of a background row. -/
theorem bgRowFrom_getElem? (s : State) (y : Nat) (row : List Rgba) (x0 x : Nat) :
    (bgRowFrom s y x0 row)[x]? = row[x]?.map (bgOver s y (x0 + x)) := by
  induction row generalizing x0 x with
  | nil => simp [bgRowFrom]
  | cons q qs ih =>
    cases x with
    | zero => simp [bgRowFrom]
    | succ x =>
      simp only [bgRowFrom, List.getElem?_cons_succ, ih]
      congr 2
      omega

/-! ## Sprites -/

/-- Sprite `i` has a nonzero pixel of line `y` at screen column `x`, in the pass `behind`. -/
def drawsAt (s : State) (y x : Nat) (behind : Bool) (i : Nat) : Bool :=
  s.ppu.intersects i y && (s.ppu.sprite i).attr.getLsbD 5 == behind &&
    decide ((s.ppu.sprite i).x.toNat ≤ x ∧ x < (s.ppu.sprite i).x.toNat + 8 ∧
      s.ppu.spritePixel (s.ppu.sprite i) y (x - (s.ppu.sprite i).x.toNat) ≠ 0)

/-- The colour sprite `i` has there. -/
def spriteColourAt (s : State) (y x i : Nat) : Rgba :=
  colour s (s.ppu.pal.read (0x10 + ((s.ppu.sprite i).attr.toNat % 4) * 4 +
    s.ppu.spritePixel (s.ppu.sprite i) y (x - (s.ppu.sprite i).x.toNat)))

/-- Pixel `x` after the columns `cs` of one sprite (R463). -/
theorem drawColumns_getElem? (s : State) (y i : Nat) (q : Sprite) (x : Nat) (hx : x < s.cfg.width) (cs : List Nat) :
    ∀ acc : SpriteRow, acc.row.length = s.cfg.width →
      (cs.foldl (drawColumn s y i q) acc).row[x]? =
        if q.x.toNat ≤ x ∧ x - q.x.toNat ∈ cs ∧ s.ppu.spritePixel q y (x - q.x.toNat) ≠ 0 then
          some (colour s (s.ppu.pal.read (0x10 + (q.attr.toNat % 4) * 4 + s.ppu.spritePixel q y (x - q.x.toNat))))
        else acc.row[x]? := by
  induction cs with
  | nil => simp
  | cons c cs ih =>
    intro acc hl
    rw [List.foldl_cons, ih _ ((drawColumn_length s y i q acc c).trans hl)]
    by_cases h : q.x.toNat ≤ x ∧ x - q.x.toNat ∈ cs ∧ s.ppu.spritePixel q y (x - q.x.toNat) ≠ 0
    · rw [if_pos h, if_pos ⟨h.1, List.mem_cons_of_mem _ h.2.1, h.2.2⟩]
    rw [if_neg h]
    simp only [drawColumn]
    by_cases hc : q.x.toNat + c = x
    · have e : x - q.x.toNat = c := by omega
      by_cases hp : s.ppu.spritePixel q y c = 0
      · rw [if_pos (.inr hp), if_neg (by rw [e]; simp [hp])]
      · rw [if_neg (by omega), if_pos ⟨by omega, by rw [e]; simp, by rw [e]; exact hp⟩, e, hc,
          List.getElem?_set_self (by omega)]
    · have hm : ¬(q.x.toNat ≤ x ∧ x - q.x.toNat ∈ c :: cs ∧ s.ppu.spritePixel q y (x - q.x.toNat) ≠ 0) := by
        rintro ⟨h1, h2, h3⟩
        rcases List.mem_cons.1 h2 with h2 | h2
        · omega
        · exact h ⟨h1, h2, h3⟩
      rw [if_neg hm]
      split
      · rfl
      · exact List.getElem?_set_ne hc

/-- Pixel `x` after sprite `i` of one pass. -/
theorem drawSprite_getElem? (s : State) (y x : Nat) (hx : x < s.cfg.width) (b : Bool) (acc : SpriteRow) (i : Nat)
    (hl : acc.row.length = s.cfg.width) :
    (drawSprite s y b acc i).row[x]? =
      if drawsAt s y x b i then some (spriteColourAt s y x i) else acc.row[x]? := by
  simp only [drawSprite, drawsAt, spriteColourAt]
  by_cases h : (s.ppu.intersects i y && (s.ppu.sprite i).attr.getLsbD 5 == b) = true
  · rw [if_pos h, drawColumns_getElem? s y i _ x hx _ acc hl]
    refine if_congr ?_ rfl rfl
    simp only [h, Bool.true_and, decide_eq_true_eq, List.mem_range]
    constructor <;> rintro ⟨h1, h2, h3⟩ <;> exact ⟨h1, by omega, h3⟩
  · rw [if_neg h]
    simp only [Bool.not_eq_true] at h
    simp only [h, Bool.false_and, Bool.false_eq_true, if_false]

/-- Pixel `x` after the sprites `l`, drawn from the last to the first: the first that draws there wins (R465). -/
theorem drawSprites_getElem? (s : State) (y x : Nat) (hx : x < s.cfg.width) (b : Bool) (acc : SpriteRow)
    (hl : acc.row.length = s.cfg.width) (l : List Nat) :
    (l.reverse.foldl (drawSprite s y b) acc).row[x]? =
      match l.find? (drawsAt s y x b) with
      | some i => some (spriteColourAt s y x i)
      | none => acc.row[x]? := by
  induction l with
  | nil => rfl
  | cons a l ih =>
    have hlen := (drawSprites_length s y b l.reverse acc).trans hl
    rw [List.reverse_cons, List.foldl_append, List.foldl_cons, List.foldl_nil,
      drawSprite_getElem? s y x hx b _ a hlen, ih, List.find?_cons]
    cases drawsAt s y x b a <;> simp

/-- Pixel `x` after one whole sprite pass (R463 to R465). -/
theorem spritePass_getElem? (s : State) (y x : Nat) (hx : x < s.cfg.width) (b : Bool) (acc : SpriteRow)
    (hl : acc.row.length = s.cfg.width) :
    (spritePass s y b acc).row[x]? =
      match (List.range 64).find? (drawsAt s y x b) with
      | some i => some (spriteColourAt s y x i)
      | none => acc.row[x]? :=
  drawSprites_getElem? s y x hx b acc hl (List.range 64)

/-- The hit flag after the columns `cs` of sprite `i` (R469). -/
theorem drawColumns_hit (s : State) (y i : Nat) (q : Sprite) (acc : SpriteRow) (cs : List Nat) :
    (cs.foldl (drawColumn s y i q) acc).hit = (acc.hit || cs.any fun c =>
      (i == 0) && decide (¬(s.cfg.width ≤ q.x.toNat + c ∨ s.ppu.spritePixel q y c = 0))) := by
  induction cs generalizing acc with
  | nil => simp
  | cons c cs ih =>
    rw [List.foldl_cons, ih, List.any_cons]
    simp only [drawColumn]
    split
    · rename_i h
      simp [h]
    · rename_i h
      simp [h, Bool.or_assoc]

/-- The hit flag after the sprites `is` of one pass (R469). -/
theorem drawSprites_hit (s : State) (y : Nat) (b : Bool) (acc : SpriteRow) (is : List Nat) :
    (is.foldl (drawSprite s y b) acc).hit = (acc.hit || is.any fun i =>
      s.ppu.intersects i y && ((s.ppu.sprite i).attr.getLsbD 5 == b) && ((List.range 8).any fun c =>
        (i == 0) && decide (¬(s.cfg.width ≤ (s.ppu.sprite i).x.toNat + c ∨
          s.ppu.spritePixel (s.ppu.sprite i) y c = 0)))) := by
  induction is generalizing acc with
  | nil => simp
  | cons i is ih =>
    rw [List.foldl_cons, ih, List.any_cons]
    simp only [drawSprite]
    split
    · rename_i h
      rw [h, drawColumns_hit]
      simp [Bool.or_assoc]
    · rename_i h
      simp only [Bool.not_eq_true] at h
      simp only [h, Bool.false_and, Bool.false_or]

/-! ## The composed line -/

/-- The fill of a line has WIDTH pixels. -/
theorem fill_length (s : State) (r : Rgba) (h : Bool) :
    (SpriteRow.mk (List.replicate s.cfg.width r) h).row.length = s.cfg.width := by simp

/-- Pixel `x` of a composed line: in-front sprites over the background over behind sprites over the fill
(R404, R465). -/
theorem composeRow_getElem? (s : State) (y x : Nat) (hx : x < s.cfg.width) :
    (composeRow s y).row[x]? = some (
      match (if s.ppu.mask.getLsbD 4 then (List.range 64).find? (drawsAt s y x false) else none) with
      | some k => spriteColourAt s y x k
      | none =>
        bif s.ppu.mask.getLsbD 3 && !decide (bgPixel s.cfg.mirroring s.ppu (bgPos s.ppu y x) = 0) then
          colour s (s.ppu.pal.read (bgSelector s.cfg.mirroring s.ppu (bgPos s.ppu y x) * 4 +
            bgPixel s.cfg.mirroring s.ppu (bgPos s.ppu y x)))
        else
          match (if s.ppu.mask.getLsbD 4 then (List.range 64).find? (drawsAt s y x true) else none) with
          | some k => spriteColourAt s y x k
          | none => colour s (s.ppu.pal.read 0)) := by
  have l1 : ∀ b (acc : SpriteRow), acc.row.length = s.cfg.width → (spritePass s y b acc).row.length = s.cfg.width :=
    fun b acc h => (drawSprites_length ..).trans h
  have l2 : ∀ (r : List Rgba) h, r.length = s.cfg.width →
      (SpriteRow.mk (background s y r) h).row.length = s.cfg.width :=
    fun r h e => (bgRowFrom_length ..).trans e
  have fl := fill_length s (colour s (s.ppu.pal.read 0)) s.ppu.sprite0Hit
  have fg : ((SpriteRow.mk (List.replicate s.cfg.width (colour s (s.ppu.pal.read 0))) s.ppu.sprite0Hit).row)[x]? =
      some (colour s (s.ppu.pal.read 0)) := by
    simp [hx]
  have bg : ∀ (r : List Rgba), (background s y r)[x]? = r[x]?.map (bgOver s y x) := by
    intro r; rw [background, bgRowFrom_getElem?, Nat.zero_add]
  cases h4 : s.ppu.mask.getLsbD 4 <;> cases h3 : s.ppu.mask.getLsbD 3
  · simp only [composeRow, h4, h3, Bool.false_eq_true, if_false, Bool.false_and, cond_false, fg]
  · simp only [composeRow, h4, h3, Bool.false_eq_true, if_false, if_true, bg, fg, Option.map_some, bgOver,
      Bool.true_and]
    by_cases hp : bgPixel s.cfg.mirroring s.ppu (bgPos s.ppu y x) = 0 <;> simp [hp]
  · simp only [composeRow, h4, h3, Bool.false_eq_true, if_false, if_true, Bool.false_and, cond_false]
    rw [spritePass_getElem? s y x hx _ _ (l1 _ _ fl), spritePass_getElem? s y x hx _ _ fl, fg]
    cases (List.range 64).find? (drawsAt s y x false)
    · simp only
      cases (List.range 64).find? (drawsAt s y x true) <;> rfl
    · simp only
  · simp only [composeRow, h4, h3, if_true, Bool.true_and]
    rw [spritePass_getElem? s y x hx _ _ (l2 _ _ (l1 _ _ fl)), bg, spritePass_getElem? s y x hx _ _ fl, fg]
    cases (List.range 64).find? (drawsAt s y x false) <;> simp only
    cases (List.range 64).find? (drawsAt s y x true) <;>
    by_cases hp : bgPixel s.cfg.mirroring s.ppu (bgPos s.ppu y x) = 0 <;> simp [bgOver, hp]

/-! ## What rendering reads and writes

A line is rendered after the dot counter has been reset (47_ppu_timing.md R403); no pixel depends on that counter. -/

theorem colour_setCycle (c : Nat) (s : State) : colour (s.setPpu { s.ppu with cycle := c }) = colour s := rfl

theorem drawColumn_setCycle (y c : Nat) (s : State) :
    drawColumn (s.setPpu { s.ppu with cycle := c }) y = drawColumn s y := rfl

theorem drawSprite_setCycle (y c : Nat) (s : State) :
    drawSprite (s.setPpu { s.ppu with cycle := c }) y = drawSprite s y := by
  funext behind acc i
  simp only [drawSprite, drawColumn_setCycle]
  rfl

theorem background_setCycle (y c : Nat) (s : State) :
    background (s.setPpu { s.ppu with cycle := c }) y = background s y := by
  have e : ∀ x row, bgRowFrom (s.setPpu { s.ppu with cycle := c }) y x row = bgRowFrom s y x row := by
    intro x row
    induction row generalizing x with
    | nil => rfl
    | cons q qs ih => rw [bgRowFrom, bgRowFrom, ih]; rfl
  funext row
  exact e 0 row

theorem composeRow_setCycle (y c : Nat) (s : State) :
    composeRow (s.setPpu { s.ppu with cycle := c }) y = composeRow s y := by
  simp only [composeRow, spritePass, drawSprite_setCycle, background_setCycle, colour_setCycle]
  rfl

/-- Rendering commutes with writing the dot counter. -/
theorem renderScanline_setCycle (y c : Nat) (s : State) :
    renderScanline y (s.setPpu { s.ppu with cycle := c }) =
      (renderScanline y s).setPpu { (renderScanline y s).ppu with cycle := c } := by
  have e : (s.setPpu { s.ppu with cycle := c }).ppu.mask = s.ppu.mask := rfl
  simp only [renderScanline, composeRow_setCycle, e]
  cases s.ppu.mask.getLsbD 4 <;> rfl

/-- Everything rendering a line can change: the working buffer, the sprite count and two flags (R404). -/
theorem renderScanline_eq (y : Nat) (s : State) :
    renderScanline y s = s.setPpu { s.ppu with
      work := (renderScanline y s).ppu.work
      spriteCount := (renderScanline y s).ppu.spriteCount
      sprite0Hit := (renderScanline y s).ppu.sprite0Hit
      overflow := (renderScanline y s).ppu.overflow } := by
  simp only [renderScanline, Ppu.evaluateSprites]
  cases s.ppu.mask.getLsbD 4 <;> rfl

end Sys2Proof.Machine
end

