-- ==== Sys2Proof/Tests/Slice0.lean ====
section
/-! SUPPORT. The model's own tests: ill-formed terms each check refuses, a word written out from the spec for
every constructor of `Instr`, small tests of each instruction, of the address decoder, the devices, the interrupts and
the PPU with the expected values of spec/95_test_vectors.md, and for every statement with hypotheses a witness that meets
them. Every expected value is the spec's. -/

namespace Sys2Proof.Tests

open Sys2Proof Sys2Proof.Machine

/-! ## Helpers -/

/-- A palette for the tests, colour `n` being grey level `n`. -/
def greys : List Rgba := (List.range 64).map fun n => ⟨BitVec.ofNat 8 n, BitVec.ofNat 8 n, BitVec.ofNat 8 n, 0xFF#8⟩

/-- The default configuration with that palette. -/
def testConfig : Config := { defaultConfig with palette := greys }

/-- A small PPU: 4 dots a line, 5 lines of which 2 visible, 24 pixels wide. -/
def smallConfig : Config :=
  { testConfig with cyclesPerScanline := 4, totalScanlines := 5, visibleHeight := 2, vblankStart := 3, width := 24 }

/-- The machine after reset with a program at 0x8000, all three vectors zero. -/
def booted (c : Config) (bs : List Byte) : State :=
  { State.boot c (Memory.ofBytes 0x8000 bs) Controls.initial with pc := 0x8000#16 }

/-- The machine after reset, PC past an instruction. -/
def s0 : State := booted testConfig []

/-- A memory listing one byte. -/
def cell (n : Nat) (v : Byte) : Memory := [(n, v)]

/-- What `exec` leaves, if it answers a next state. -/
def after (i : Instr) (s : State) : Option State :=
  match exec i s with
  | .next t => some t
  | .fault _ => none
  | .refused _ => none

/-- What a step leaves, if it answers a next state. -/
def stepped (s : State) : Option State :=
  match step s with
  | .next t => some t
  | .fault _ => none
  | .refused _ => none

/-- A and P. -/
def ap (t : State) : Byte × Byte := (t.a, t.p)

/-- The bytes decode to the instruction. -/
def decodesAs (p : List Byte × Instr) : Bool :=
  match decode p.1 with
  | .ok i => i == p.2
  | .error _ => false

/-! ## Ill-formed terms are refused -/

theorem test_store_has_no_immediate_form : hasCell .STA .imm = false := by decide
theorem test_stx_has_no_x_indexed_form : hasCell .STX .zpx = false := by decide
theorem test_request_store_of_immediate_refused : Request.wellFormed ⟨.STA, .imm 0x01#8⟩ = false := by decide
theorem test_request_jump_refused : Request.wellFormed ⟨.JMP, .mem 0x8000#16⟩ = false := by decide
theorem test_request_return_refused : Request.wellFormed ⟨.RTI, .implied⟩ = false := by decide
theorem test_request_inc_of_accumulator_refused : Request.wellFormed ⟨.INC, .acc⟩ = false := by decide
theorem test_request_accepted : Request.wellFormed ⟨.ADC, .mem 0x1234#16⟩ = true := by decide
theorem test_config_no_dots_refused : ¬({ testConfig with cyclesPerScanline := 0 }).WellFormed := by decide
theorem test_config_height_refused : ¬({ testConfig with visibleHeight := 262 }).WellFormed := by decide
theorem test_config_vblank_refused : ¬({ testConfig with vblankStart := 262 }).WellFormed := by decide
theorem test_config_brk_length_zero_refused : ¬({ testConfig with brkLength := 0 }).WellFormed := by decide
theorem test_config_brk_length_four_refused : ¬({ testConfig with brkLength := 4 }).WellFormed := by decide
theorem test_config_palette_refused : ¬({ testConfig with palette := [] }).WellFormed := by decide
theorem test_config_cycles_refused : ¬({ testConfig with cycles := [] }).WellFormed := by decide
theorem test_config_accepted : testConfig.WellFormed := by decide +kernel
theorem test_config_small_accepted : smallConfig.WellFormed := by decide +kernel

/-! ## Decoding: every constructor by its bytes, from 30_encoding.md R131 and R137 -/

theorem test_decode_arithmetic : ([
    ([0x69#8, 0x34#8], .adcImm 0x34#8), ([0x65#8, 0x34#8], .adcZp 0x34#8),
    ([0x75#8, 0x34#8], .adcZpx 0x34#8), ([0x6D#8, 0x34#8, 0x12#8], .adcAbs 0x1234#16),
    ([0x7D#8, 0x34#8, 0x12#8], .adcAbx 0x1234#16), ([0x79#8, 0x34#8, 0x12#8], .adcAby 0x1234#16),
    ([0x61#8, 0x34#8], .adcIzx 0x34#8), ([0x71#8, 0x34#8], .adcIzy 0x34#8),
    ([0xE9#8, 0x34#8], .sbcImm 0x34#8), ([0xE5#8, 0x34#8], .sbcZp 0x34#8),
    ([0xF5#8, 0x34#8], .sbcZpx 0x34#8), ([0xED#8, 0x34#8, 0x12#8], .sbcAbs 0x1234#16),
    ([0xFD#8, 0x34#8, 0x12#8], .sbcAbx 0x1234#16), ([0xF9#8, 0x34#8, 0x12#8], .sbcAby 0x1234#16),
    ([0xE1#8, 0x34#8], .sbcIzx 0x34#8), ([0xF1#8, 0x34#8], .sbcIzy 0x34#8)] :
    List (List Byte × Instr)).all decodesAs = true := by decide

theorem test_decode_compare : ([
    ([0xC9#8, 0x34#8], .cmpImm 0x34#8), ([0xC5#8, 0x34#8], .cmpZp 0x34#8),
    ([0xD5#8, 0x34#8], .cmpZpx 0x34#8), ([0xCD#8, 0x34#8, 0x12#8], .cmpAbs 0x1234#16),
    ([0xDD#8, 0x34#8, 0x12#8], .cmpAbx 0x1234#16), ([0xD9#8, 0x34#8, 0x12#8], .cmpAby 0x1234#16),
    ([0xC1#8, 0x34#8], .cmpIzx 0x34#8), ([0xD1#8, 0x34#8], .cmpIzy 0x34#8),
    ([0xE0#8, 0x34#8], .cpxImm 0x34#8), ([0xE4#8, 0x34#8], .cpxZp 0x34#8),
    ([0xEC#8, 0x34#8, 0x12#8], .cpxAbs 0x1234#16), ([0xC0#8, 0x34#8], .cpyImm 0x34#8),
    ([0xC4#8, 0x34#8], .cpyZp 0x34#8), ([0xCC#8, 0x34#8, 0x12#8], .cpyAbs 0x1234#16)] :
    List (List Byte × Instr)).all decodesAs = true := by decide

theorem test_decode_incdec : ([
    ([0xC6#8, 0x34#8], .decZp 0x34#8), ([0xD6#8, 0x34#8], .decZpx 0x34#8),
    ([0xCE#8, 0x34#8, 0x12#8], .decAbs 0x1234#16), ([0xDE#8, 0x34#8, 0x12#8], .decAbx 0x1234#16),
    ([0xCA#8], .dex), ([0x88#8], .dey), ([0xE6#8, 0x34#8], .incZp 0x34#8),
    ([0xF6#8, 0x34#8], .incZpx 0x34#8), ([0xEE#8, 0x34#8, 0x12#8], .incAbs 0x1234#16),
    ([0xFE#8, 0x34#8, 0x12#8], .incAbx 0x1234#16), ([0xE8#8], .inx), ([0xC8#8], .iny)] :
    List (List Byte × Instr)).all decodesAs = true := by decide

theorem test_decode_logic_1 : ([
    ([0x29#8, 0x34#8], .andImm 0x34#8), ([0x25#8, 0x34#8], .andZp 0x34#8),
    ([0x35#8, 0x34#8], .andZpx 0x34#8), ([0x2D#8, 0x34#8, 0x12#8], .andAbs 0x1234#16),
    ([0x3D#8, 0x34#8, 0x12#8], .andAbx 0x1234#16), ([0x39#8, 0x34#8, 0x12#8], .andAby 0x1234#16),
    ([0x21#8, 0x34#8], .andIzx 0x34#8), ([0x31#8, 0x34#8], .andIzy 0x34#8),
    ([0x24#8, 0x34#8], .bitZp 0x34#8), ([0x2C#8, 0x34#8, 0x12#8], .bitAbs 0x1234#16),
    ([0x49#8, 0x34#8], .eorImm 0x34#8), ([0x45#8, 0x34#8], .eorZp 0x34#8),
    ([0x55#8, 0x34#8], .eorZpx 0x34#8), ([0x4D#8, 0x34#8, 0x12#8], .eorAbs 0x1234#16),
    ([0x5D#8, 0x34#8, 0x12#8], .eorAbx 0x1234#16), ([0x59#8, 0x34#8, 0x12#8], .eorAby 0x1234#16)] :
    List (List Byte × Instr)).all decodesAs = true := by decide

theorem test_decode_logic_2 : ([
    ([0x41#8, 0x34#8], .eorIzx 0x34#8), ([0x51#8, 0x34#8], .eorIzy 0x34#8),
    ([0x09#8, 0x34#8], .oraImm 0x34#8), ([0x05#8, 0x34#8], .oraZp 0x34#8),
    ([0x15#8, 0x34#8], .oraZpx 0x34#8), ([0x0D#8, 0x34#8, 0x12#8], .oraAbs 0x1234#16),
    ([0x1D#8, 0x34#8, 0x12#8], .oraAbx 0x1234#16), ([0x19#8, 0x34#8, 0x12#8], .oraAby 0x1234#16),
    ([0x01#8, 0x34#8], .oraIzx 0x34#8), ([0x11#8, 0x34#8], .oraIzy 0x34#8)] :
    List (List Byte × Instr)).all decodesAs = true := by decide

theorem test_decode_shift_left : ([
    ([0x0A#8], .aslAcc), ([0x06#8, 0x34#8], .aslZp 0x34#8), ([0x16#8, 0x34#8], .aslZpx 0x34#8),
    ([0x0E#8, 0x34#8, 0x12#8], .aslAbs 0x1234#16), ([0x1E#8, 0x34#8, 0x12#8], .aslAbx 0x1234#16),
    ([0x2A#8], .rolAcc), ([0x26#8, 0x34#8], .rolZp 0x34#8), ([0x36#8, 0x34#8], .rolZpx 0x34#8),
    ([0x2E#8, 0x34#8, 0x12#8], .rolAbs 0x1234#16), ([0x3E#8, 0x34#8, 0x12#8], .rolAbx 0x1234#16)] :
    List (List Byte × Instr)).all decodesAs = true := by decide

theorem test_decode_shift_right : ([
    ([0x4A#8], .lsrAcc), ([0x46#8, 0x34#8], .lsrZp 0x34#8), ([0x56#8, 0x34#8], .lsrZpx 0x34#8),
    ([0x4E#8, 0x34#8, 0x12#8], .lsrAbs 0x1234#16), ([0x5E#8, 0x34#8, 0x12#8], .lsrAbx 0x1234#16),
    ([0x6A#8], .rorAcc), ([0x66#8, 0x34#8], .rorZp 0x34#8), ([0x76#8, 0x34#8], .rorZpx 0x34#8),
    ([0x6E#8, 0x34#8, 0x12#8], .rorAbs 0x1234#16), ([0x7E#8, 0x34#8, 0x12#8], .rorAbx 0x1234#16)] :
    List (List Byte × Instr)).all decodesAs = true := by decide

theorem test_decode_load_1 : ([
    ([0xA9#8, 0x34#8], .ldaImm 0x34#8), ([0xA5#8, 0x34#8], .ldaZp 0x34#8),
    ([0xB5#8, 0x34#8], .ldaZpx 0x34#8), ([0xAD#8, 0x34#8, 0x12#8], .ldaAbs 0x1234#16),
    ([0xBD#8, 0x34#8, 0x12#8], .ldaAbx 0x1234#16), ([0xB9#8, 0x34#8, 0x12#8], .ldaAby 0x1234#16),
    ([0xA1#8, 0x34#8], .ldaIzx 0x34#8), ([0xB1#8, 0x34#8], .ldaIzy 0x34#8),
    ([0xA2#8, 0x34#8], .ldxImm 0x34#8), ([0xA6#8, 0x34#8], .ldxZp 0x34#8),
    ([0xB6#8, 0x34#8], .ldxZpy 0x34#8), ([0xAE#8, 0x34#8, 0x12#8], .ldxAbs 0x1234#16),
    ([0xBE#8, 0x34#8, 0x12#8], .ldxAby 0x1234#16), ([0xA0#8, 0x34#8], .ldyImm 0x34#8),
    ([0xA4#8, 0x34#8], .ldyZp 0x34#8), ([0xB4#8, 0x34#8], .ldyZpx 0x34#8)] :
    List (List Byte × Instr)).all decodesAs = true := by decide

theorem test_decode_load_2 : ([
    ([0xAC#8, 0x34#8, 0x12#8], .ldyAbs 0x1234#16), ([0xBC#8, 0x34#8, 0x12#8], .ldyAbx 0x1234#16)] :
    List (List Byte × Instr)).all decodesAs = true := by decide

theorem test_decode_store : ([
    ([0x85#8, 0x34#8], .staZp 0x34#8), ([0x95#8, 0x34#8], .staZpx 0x34#8),
    ([0x8D#8, 0x34#8, 0x12#8], .staAbs 0x1234#16), ([0x9D#8, 0x34#8, 0x12#8], .staAbx 0x1234#16),
    ([0x99#8, 0x34#8, 0x12#8], .staAby 0x1234#16), ([0x81#8, 0x34#8], .staIzx 0x34#8),
    ([0x91#8, 0x34#8], .staIzy 0x34#8), ([0x86#8, 0x34#8], .stxZp 0x34#8),
    ([0x96#8, 0x34#8], .stxZpy 0x34#8), ([0x8E#8, 0x34#8, 0x12#8], .stxAbs 0x1234#16),
    ([0x84#8, 0x34#8], .styZp 0x34#8), ([0x94#8, 0x34#8], .styZpx 0x34#8),
    ([0x8C#8, 0x34#8, 0x12#8], .styAbs 0x1234#16)] :
    List (List Byte × Instr)).all decodesAs = true := by decide

theorem test_decode_transfer : ([
    ([0x48#8], .pha), ([0x08#8], .php), ([0x68#8], .pla), ([0x28#8], .plp), ([0xAA#8], .tax),
    ([0xA8#8], .tay), ([0xBA#8], .tsx), ([0x8A#8], .txa), ([0x9A#8], .txs), ([0x98#8], .tya)] :
    List (List Byte × Instr)).all decodesAs = true := by decide

theorem test_decode_flags : ([
    ([0x18#8], .clc), ([0xD8#8], .cld), ([0x58#8], .cli), ([0xB8#8], .clv), ([0x38#8], .sec),
    ([0xF8#8], .sed), ([0x78#8], .sei)] :
    List (List Byte × Instr)).all decodesAs = true := by decide

theorem test_decode_control : ([
    ([0x90#8, 0x34#8], .bcc 0x34#8), ([0xB0#8, 0x34#8], .bcs 0x34#8), ([0xF0#8, 0x34#8], .beq 0x34#8),
    ([0x30#8, 0x34#8], .bmi 0x34#8), ([0xD0#8, 0x34#8], .bne 0x34#8), ([0x10#8, 0x34#8], .bpl 0x34#8),
    ([0x00#8], .brk), ([0x50#8, 0x34#8], .bvc 0x34#8), ([0x70#8, 0x34#8], .bvs 0x34#8),
    ([0x4C#8, 0x34#8, 0x12#8], .jmpAbs 0x1234#16), ([0x6C#8, 0x34#8, 0x12#8], .jmpInd 0x1234#16),
    ([0x20#8, 0x34#8, 0x12#8], .jsr 0x1234#16), ([0xEA#8], .nop), ([0x40#8], .rti), ([0x60#8], .rts)] :
    List (List Byte × Instr)).all decodesAs = true := by decide

theorem test_decode_undocumented : (decode [0x02#8, 0x00#8, 0x00#8]).toOption = none := by decide
theorem test_decode_missing_operand : (decode [0x69#8]).toOption = none := by decide
theorem test_decode_table_word : decodeTableWord 24 0x1234AD = some (.ldaAbs 0x1234#16) := by decide
theorem test_decode_table_word_short : decodeTableWord 8 0x12AD = some (.ldaAbs 0x0000#16) := by decide
theorem test_encode_low_byte_first : encode (.jmpInd 0x82FF#16) = [0x6C#8, 0xFF#8, 0x82#8] := by decide

/-! ## Arithmetic and compare (95_test_vectors.md section 2) -/

/-- A, operand, carry in; A and P after (P from the columns C, Z, V, N and the unused flag). -/
def arith (f : Byte → Instr) (r : Byte × Byte × Byte × Byte × Byte) : Bool :=
  let (a, m, c, a', p') := r
  (after (f m) { s0 with a := a, p := 0x20#8 ||| c }).map ap == some (a', p')

theorem test_adc : ([(0x50#8, 0x50#8, 0, 0xA0#8, 0xE0#8), (0x50#8, 0x10#8, 0, 0x60#8, 0x20#8),
    (0xD0#8, 0x90#8, 0, 0x60#8, 0x61#8), (0xFF#8, 0x01#8, 0, 0x00#8, 0x23#8), (0xFF#8, 0x00#8, 1, 0x00#8, 0x23#8),
    (0x7F#8, 0x00#8, 1, 0x80#8, 0xE0#8), (0x80#8, 0x80#8, 0, 0x00#8, 0x63#8), (0xFF#8, 0xFF#8, 1, 0xFF#8, 0xA1#8)] :
    List (Byte × Byte × Byte × Byte × Byte)).all (arith .adcImm) = true := by decide
theorem test_adc_ignores_decimal :
    (after (.adcImm 0x50#8) { s0 with a := 0x50#8, p := 0x28#8 }).map ap = some (0xA0#8, 0xE8#8) := by decide
theorem test_sbc : ([(0x50#8, 0xF0#8, 1, 0x60#8, 0x20#8), (0x50#8, 0xB0#8, 1, 0xA0#8, 0xE0#8),
    (0x50#8, 0x50#8, 1, 0x00#8, 0x23#8), (0x50#8, 0x50#8, 0, 0xFF#8, 0xA0#8), (0x80#8, 0x01#8, 1, 0x7F#8, 0x61#8),
    (0x7F#8, 0xFF#8, 1, 0x80#8, 0xE0#8), (0x00#8, 0xFF#8, 0, 0x00#8, 0x22#8), (0x10#8, 0x0F#8, 0, 0x00#8, 0x23#8)] :
    List (Byte × Byte × Byte × Byte × Byte)).all (arith .sbcImm) = true := by decide

/-- The vectors of the three compares: register, operand, P after. -/
def compareVectors : List (Byte × Byte × Byte) :=
  [(0x40#8, 0x40#8, 0x23#8), (0x40#8, 0x41#8, 0xA0#8), (0x41#8, 0x40#8, 0x21#8), (0x00#8, 0xFF#8, 0x20#8),
    (0xFF#8, 0x00#8, 0xA1#8), (0x80#8, 0x7F#8, 0x21#8), (0x7F#8, 0x80#8, 0xA0#8)]

theorem test_cmp : compareVectors.all (fun r =>
    (after (.cmpImm r.2.1) { s0 with a := r.1 }).map ap == some (r.1, r.2.2)) = true := by decide
theorem test_cpx : compareVectors.all (fun r =>
    (after (.cpxImm r.2.1) { s0 with x := r.1 }).map (fun t => t.p) == some r.2.2) = true := by decide
theorem test_cpy : compareVectors.all (fun r =>
    (after (.cpyImm r.2.1) { s0 with y := r.1 }).map (fun t => t.p) == some r.2.2) = true := by decide
theorem test_inc : ([(0x00#8, 0x01#8, 0x21#8), (0x7F#8, 0x80#8, 0xA1#8), (0xFF#8, 0x00#8, 0x23#8)] :
    List (Byte × Byte × Byte)).all (fun r =>
      (after (.incZp 0x10#8) { s0 with p := 0x21#8, zp := Memory.write [] 0x10 r.1 }).map
        (fun t => (t.zp.read 0x10, t.p)) == some r.2) = true := by decide
theorem test_inc_of_rom_sets_flags : (after (.incAbs 0x8010#16) { s0 with prg := cell 0x10 0x7F#8 }).map
    (fun t => (t.prg.read 0x10, t.p, t.anomalies)) = some (0x7F#8, 0xA0#8, []) := by decide
theorem test_dec : ([(0x00#8, 0xFF#8, 0xA1#8), (0x01#8, 0x00#8, 0x23#8), (0x80#8, 0x7F#8, 0x21#8)] :
    List (Byte × Byte × Byte)).all (fun r =>
      (after (.decZp 0x10#8) { s0 with p := 0x21#8, zp := Memory.write [] 0x10 r.1 }).map
        (fun t => (t.zp.read 0x10, t.p)) == some r.2) = true := by decide
theorem test_inc_of_oam_data : (after (.incAbs 0x2004#16) { s0 with ppu := { s0.ppu with oam := cell 0 0x41#8 } }).map
    (fun t => (t.ppu.oam.read 0, t.ppu.oamAddr, t.p)) = some (0x42#8, 0x01#8, 0x20#8) := by decide
theorem test_inx : (after .inx { s0 with x := 0xFF#8, p := 0x21#8 }).map (fun t => (t.x, t.p)) =
    some (0x00#8, 0x23#8) := by decide
theorem test_iny : (after .iny { s0 with y := 0x7F#8 }).map (fun t => (t.y, t.p)) = some (0x80#8, 0xA0#8) := by
  decide
theorem test_dex : (after .dex { s0 with x := 0x00#8 }).map (fun t => (t.x, t.p)) = some (0xFF#8, 0xA0#8) := by
  decide
theorem test_dey : (after .dey { s0 with y := 0x01#8 }).map (fun t => (t.y, t.p)) = some (0x00#8, 0x22#8) := by
  decide

/-! ## Logic, BIT, shifts and rotates (section 3) -/

theorem test_and : (after (.andImm 0x80#8) { s0 with a := 0xFF#8 }).map ap = some (0x80#8, 0xA0#8) := by decide
theorem test_ora : (after (.oraImm 0x0F#8) { s0 with a := 0x70#8 }).map ap = some (0x7F#8, 0x20#8) := by decide
theorem test_eor : (after (.eorImm 0xAA#8) { s0 with a := 0xAA#8 }).map ap = some (0x00#8, 0x22#8) := by decide
theorem test_bit : ([(0x01#8, 0xC0#8, 0xE2#8), (0xFF#8, 0x3F#8, 0x20#8), (0x40#8, 0x40#8, 0x60#8), (0x80#8, 0x80#8, 0xA0#8)] :
    List (Byte × Byte × Byte)).all (fun r =>
      (after (.bitZp 0x10#8) { s0 with a := r.1, zp := cell 0x10 r.2.1 }).map ap == some (r.1, r.2.2)) = true := by
  decide
theorem test_bit_of_status : (after (.bitAbs 0x2002#16)
      { s0 with ppu := { s0.ppu with vblank := true, sprite0Hit := true, toggle := true } }).map
    (fun t => (t.p, t.ppu.vblank, t.ppu.toggle, t.ppu.sprite0Hit)) = some (0xE2#8, false, false, true) := by
  decide

/-- Value and carry in; the results and flag bytes of ASL, LSR, ROL, ROR. -/
def shiftVectors : List ((Byte × Byte) × List (Byte × Byte)) :=
  [((0x00#8, 1#8), [(0x00#8, 0x22#8), (0x00#8, 0x22#8), (0x01#8, 0x20#8), (0x80#8, 0xA0#8)]),
    ((0x01#8, 0#8), [(0x02#8, 0x20#8), (0x00#8, 0x23#8), (0x02#8, 0x20#8), (0x00#8, 0x23#8)]),
    ((0x81#8, 1#8), [(0x02#8, 0x21#8), (0x40#8, 0x21#8), (0x03#8, 0x21#8), (0xC0#8, 0xA1#8)]),
    ((0x55#8, 1#8), [(0xAA#8, 0xA0#8), (0x2A#8, 0x21#8), (0xAB#8, 0xA0#8), (0xAA#8, 0xA1#8)])]

theorem test_shift_accumulator : shiftVectors.all (fun r =>
    ([.aslAcc, .lsrAcc, .rolAcc, .rorAcc] : List Instr).map (fun i =>
      (after i { s0 with a := r.1.1, p := 0x20#8 ||| r.1.2 }).map ap) == r.2.map some) = true := by decide
theorem test_shift_memory : shiftVectors.all (fun r =>
    ([.aslZp 0x10#8, .lsrZp 0x10#8, .rolZp 0x10#8, .rorZp 0x10#8] : List Instr).map (fun i =>
      (after i { s0 with zp := Memory.write [] 0x10 r.1.1, p := 0x20#8 ||| r.1.2 }).map
        (fun t => (t.zp.read 0x10, t.p))) == r.2.map some) = true := by decide

/-! ## Loads, stores, transfers, stack and flags (section 4) -/

/-- The start of the transfer vectors. -/
def s1 : State := { s0 with a := 0x80#8, x := 0x01#8, y := 0x02#8, sp := 0x00#8 }

theorem test_lda : (after (.ldaImm 0x00#8) s0).map ap = some (0x00#8, 0x22#8) := by decide
theorem test_ldx : (after (.ldxImm 0x7F#8) s0).map (fun t => (t.x, t.p)) = some (0x7F#8, 0x20#8) := by decide
theorem test_ldy : (after (.ldyImm 0xFF#8) s0).map (fun t => (t.y, t.p)) = some (0xFF#8, 0xA0#8) := by decide
theorem test_tax : (after .tax s1).map (fun t => (t.x, t.p)) = some (0x80#8, 0xA0#8) := by decide
theorem test_tay : (after .tay s1).map (fun t => (t.y, t.p)) = some (0x80#8, 0xA0#8) := by decide
theorem test_txa : (after .txa s1).map ap = some (0x01#8, 0x20#8) := by decide
theorem test_tya : (after .tya s1).map ap = some (0x02#8, 0x20#8) := by decide
theorem test_tsx : (after .tsx s1).map (fun t => (t.x, t.p)) = some (0x00#8, 0x22#8) := by decide
theorem test_txs : (after .txs s1).map (fun t => (t.sp, t.p)) = some (0x01#8, 0x20#8) := by decide
theorem test_sta : (after (.staAbs 0x0500#16) { s0 with a := 0x07#8 }).map
    (fun t => (t.ram, (cpuRead 0x0D00#16 t).1, (cpuRead 0x1D00#16 t).1)) = some (cell 0x300 0x07#8, 0x07#8, 0x07#8) := by
  decide
theorem test_stx_wraps : (after (.stxZpy 0xFF#8) s1).map (fun t => (t.zp, t.p)) = some (cell 0x01 0x01#8, 0x20#8) := by
  decide
theorem test_sty : (after (.styZp 0x12#8) s1).map (fun t => t.zp) = some (cell 0x12 0x02#8) := by decide
theorem test_pha : (after .pha { s0 with a := 0x80#8 }).map (fun t => (t.stk, t.sp)) = some (cell 0xFF 0x80#8, 0xFE#8) := by
  decide
theorem test_php : (after .php { s0 with p := 0xE3#8, sp := 0x00#8 }).map (fun t => (t.stk, t.sp)) =
    some (cell 0x00 0xE3#8, 0xFF#8) := by decide
theorem test_pla : (after .pla { s0 with stk := cell 0xFF 0x80#8, sp := 0xFE#8 }).map (fun t => (ap t, t.sp)) =
    some ((0x80#8, 0xA0#8), 0xFF#8) := by decide
theorem test_plp : (after .plp { s0 with stk := cell 0x00 0xDF#8, p := 0x20#8 }).map (fun t => (t.p, t.sp)) =
    some (0xFF#8, 0x00#8) := by decide
theorem test_single_flags : ([(.clc, 0xFF#8, 0xFE#8), (.sec, 0x20#8, 0x21#8), (.cli, 0xFF#8, 0xFB#8), (.sei, 0x20#8, 0x24#8),
    (.cld, 0xFF#8, 0xF7#8), (.sed, 0x20#8, 0x28#8), (.clv, 0xFF#8, 0xBF#8)] : List (Instr × Byte × Byte)).all
      (fun r => (after r.1 { s0 with p := r.2.1 }).map (fun t => t.p) == some r.2.2) = true := by decide

/-! ## Addressing modes and control transfer (section 5) -/

theorem test_zpx_wraps : (after (.ldaZpx 0xF0#8) { s0 with x := 0x20#8, zp := cell 0x10 0x77#8 }).map (fun t => t.a) =
    some 0x77#8 := by decide
theorem test_izx_pointer_wraps :
    (after (.ldaIzx 0xFF#8) { s0 with zp := [(0x00, 0x02#8), (0xFF, 0x34#8)], ram := cell 0x34 0x99#8 }).map (fun t => t.a) =
      some 0x99#8 := by decide
theorem test_izy : (after (.ldaIzy 0x10#8)
      { s0 with y := 0x01#8, zp := [(0x10, 0xFF#8), (0x11, 0x02#8)], ram := cell 0x100 0x5A#8 }).map (fun t => t.a) =
    some 0x5A#8 := by decide
theorem test_izy_pointer_wraps : (after (.ldaIzy 0xFF#8)
      { s0 with y := 0x04#8, zp := [(0x00, 0x03#8)], ram := cell 0x104 0x6B#8 }).map (fun t => t.a) = some 0x6B#8 := by
  decide
theorem test_abx_wraps : (after (.ldaAbx 0xFFFF#16) { s0 with x := 0x02#8, zp := cell 0x01 0xC3#8 }).map (fun t => t.a) =
    some 0xC3#8 := by decide
theorem test_aby : (after (.ldaAby 0x0300#16) { s0 with y := 0xFF#8, ram := cell 0x1FF 0x11#8 }).map (fun t => t.a) =
    some 0x11#8 := by decide
theorem test_jmp_indirect_stays_in_page : (after (.jmpInd 0x02FF#16)
      { s0 with ram := [(0x000, 0x90#8), (0x0FF, 0x34#8), (0x100, 0x80#8)] }).map (fun t => t.pc) = some 0x9034#16 := by
  decide
theorem test_jmp : (after (.jmpAbs 0x9000#16) s0).map (fun t => (t.pc, t.p)) = some (0x9000#16, 0x20#8) := by decide
theorem test_jsr : (after (.jsr 0x8040#16) { s0 with pc := 0x8013#16 }).map (fun t => (t.stk, t.sp, t.pc)) =
    some ([(0xFE, 0x12#8), (0xFF, 0x80#8)], 0xFD#8, 0x8040#16) := by decide
theorem test_rts : (after .rts { s0 with sp := 0xFD#8, stk := [(0xFE, 0x12#8), (0xFF, 0x80#8)] }).map (fun t => (t.sp, t.pc)) =
    some (0xFF#8, 0x8013#16) := by decide
theorem test_branches_taken : ([(.bcc 0xFC#8, 0x20#8), (.bcs 0xFC#8, 0x21#8), (.bne 0xFC#8, 0x20#8), (.beq 0xFC#8, 0x22#8),
    (.bpl 0xFC#8, 0x20#8), (.bmi 0xFC#8, 0xA0#8), (.bvc 0xFC#8, 0x20#8), (.bvs 0xFC#8, 0x60#8)] :
    List (Instr × Byte)).all (fun r =>
      (after r.1 { s0 with p := r.2, pc := 0x8102#16 }).map (fun t => t.pc) == some 0x80FE#16) = true := by decide
theorem test_branches_not_taken : ([(.bcc 0xFC#8, 0x21#8), (.bcs 0xFC#8, 0x20#8), (.bne 0xFC#8, 0x22#8), (.beq 0xFC#8, 0x20#8),
    (.bpl 0xFC#8, 0xA0#8), (.bmi 0xFC#8, 0x20#8), (.bvc 0xFC#8, 0x60#8), (.bvs 0xFC#8, 0x20#8)] :
    List (Instr × Byte)).all (fun r =>
      (after r.1 { s0 with p := r.2, pc := 0x8102#16 }).map (fun t => t.pc) == some 0x8102#16) = true := by decide

/-- One step of a program: PC, and PPU cycles passed (three per processor cycle). -/
def walk (bs : List Byte) (s : State) : Option (Addr × Nat) :=
  (stepped { s with prg := Memory.ofBytes 0x8000 bs, pc := 0x8000#16 }).map fun t => (t.pc, t.ppu.cycle)

theorem test_cycles_lda_imm : walk [0xA9#8, 0x00#8] s0 = some (0x8002#16, 6) := by decide
theorem test_cycles_branch_taken : walk [0xD0#8, 0x02#8] s0 = some (0x8004#16, 9) := by decide
theorem test_cycles_branch_across_page : walk [0xD0#8, 0x80#8] s0 = some (0x7F82#16, 12) := by decide
theorem test_cycles_abx_crossed : walk [0xBD#8, 0xFF#8, 0xFF#8] { s0 with x := 0x02#8 } = some (0x8003#16, 15) := by
  decide
theorem test_cycles_store_never_crosses : walk [0x9D#8, 0xFF#8, 0x02#8] { s0 with x := 0x01#8 } = some (0x8003#16, 15) := by
  decide
theorem test_step_undocumented :
    (match step { s0 with prg := cell 0 0x02#8 } with
      | .refused r => some r
      | .next _ => none
      | .fault _ => none) = some (.undocumentedOpcode 0x02#8 0x8000#16) := by decide
theorem test_step_operand_outside :
    (match step { s0 with prg := cell 0x7FFF 0xA9#8, pc := 0xFFFF#16 } with
      | .refused r => some r
      | .next _ => none
      | .fault _ => none) = some .fetchOutsideProgramStorage := by decide
theorem test_rti_outside_handler_faults :
    (match step { s0 with prg := cell 0 0x40#8 } with
      | .fault f => some f
      | .next _ => none
      | .refused _ => none) = some .returnOutsideHandler := by decide
theorem test_unsupported_mirroring : powerOn .fourScreen testConfig = .refused .unsupportedMirroring := rfl

/-! ## Address decoder (section 6) -/

theorem test_rom_write_dropped :
    (let t := cpuWrite 0x8000#16 0x55#8 { s0 with prg := cell 0 0xEA#8 }; ((cpuRead 0x8000#16 t).1, t.anomalies)) =
      (0xEA#8, []) := by decide
theorem test_fallback_2008 :
    (let r := cpuRead 0x2008#16 (cpuWrite 0x2008#16 0x11#8 s0); (r.1, r.2.anomalies)) =
      (0x11#8, [⟨0x2008, .write⟩, ⟨0x2008, .read⟩]) := by decide
theorem test_register_mirror : (cpuWrite 0x200B#16 0x44#8 s0).ppu.oamAddr = 0x44#8 := by decide
theorem test_register_mirror_top :
    (cpuWrite 0x2FFE#16 0x00#8 (cpuWrite 0x2FFE#16 0x3F#8 s0)).ppu.vaddr = 0x3F00#16 := by decide
theorem test_write_only_register_read : (cpuRead 0x2000#16 s0).2.anomalies = [⟨0x2000, .read⟩] := by decide
theorem test_status_register_write :
    (let t := cpuWrite 0x2002#16 0x09#8 s0; (t.fallback, (cpuRead 0x2002#16 t).1)) = (cell 0x2002 0x09#8, 0x00#8) := by
  decide
theorem test_save_ram :
    (cpuWrite 0x7FFF#16 0x02#8 (cpuWrite 0x6000#16 0x01#8 s0)).sram = [(0x0000, 0x01#8), (0x1FFF, 0x02#8)] := by
  decide
theorem test_audio : (cpuRead 0x4015#16 (cpuWrite 0x4017#16 0xFF#8 (cpuWrite 0x4000#16 0xFF#8 s0))).1 = 0x00#8 := by
  decide
theorem test_mirror_ppu : ([0x3EFF#16, 0x4123#16, 0xBFFF#16].map mirrorPpu) = [0x2EFF, 0x0123, 0x3F1F] := by decide

/-- Four nametable writes read back. -/
def fourSlots (mir : Mirroring) : List Byte :=
  let u := [(0x2000#16, 0x20#8), (0x2400#16, 0x24#8), (0x2800#16, 0x28#8), (0x2C00#16, 0x2C#8)].foldl
    (fun u (w : Addr × Byte) => ppuWrite mir u w.1 w.2) s0.ppu
  [0x2000#16, 0x2400#16, 0x2800#16, 0x2C00#16].map (ppuRead mir u)

theorem test_horizontal : fourSlots .horizontal = [0x24#8, 0x24#8, 0x2C#8, 0x2C#8] := by decide
theorem test_vertical : fourSlots .vertical = [0x28#8, 0x2C#8, 0x28#8, 0x2C#8] := by decide
theorem test_palette_mirror :
    (let u := ppuWrite .horizontal s0.ppu 0x3F10#16 0x21#8
     [0x3F00#16, 0x3F20#16, 0x7F00#16, 0xFF10#16].map (ppuRead .horizontal u)) = [0x21#8, 0x21#8, 0x21#8, 0x21#8] := by
  decide

/-! ## Device registers (section 7) -/

/-- A sequence of processor writes. -/
def writes (ws : List (Addr × Byte)) (s : State) : State := ws.foldl (fun s w => cpuWrite w.1 w.2 s) s

/-- `n` reads of an address: their bytes. -/
def reads (n : Nat) (a : Addr) (s : State) : List Byte :=
  ((List.range n).foldl (fun (r : List Byte × State) _ => let q := cpuRead a r.2; (r.1 ++ [q.1], q.2)) ([], s)).1

theorem test_data_port : reads 3 0x2007#16 (writes [(0x2006#16, 0x20#8), (0x2006#16, 0x00#8), (0x2007#16, 0x05#8),
    (0x2007#16, 0x06#8), (0x2006#16, 0x20#8), (0x2006#16, 0x00#8)] s0) = [0x00#8, 0x05#8, 0x06#8] := by decide
theorem test_data_port_step_32 :
    (writes [(0x2000#16, 0x04#8), (0x2006#16, 0x20#8), (0x2006#16, 0x00#8), (0x2007#16, 0x01#8)] s0).ppu.vaddr = 0x2020#16 := by
  decide
theorem test_shared_toggle :
    (let u := (writes [(0x2005#16, 0x12#8), (0x2006#16, 0x34#8)] s0).ppu; (u.scrollX, u.scrollY, u.vaddr, u.toggle)) =
      (0x12#8, 0x00#8, 0x0034#16, false) := by decide
theorem test_oam_wraps :
    (let u := (writes [(0x2003#16, 0xFF#8), (0x2004#16, 0xA1#8), (0x2004#16, 0xA2#8)] s0).ppu; (u.oam, u.oamAddr)) =
      ([(0x00, 0xA2#8), (0xFF, 0xA1#8)], 0x01#8) := by decide
theorem test_slave_latch :
    (let u := (writes [(0x2000#16, 0x43#8), (0x2000#16, 0x02#8)] s0).ppu; (u.masterSlave, u.ctrl.nametable, u.ctrl.nmi)) =
      (.slave, 3#2, false) := by decide
theorem test_master_latch :
    (let u := (writes [(0x2000#16, 0x03#8), (0x2000#16, 0x41#8)] s0).ppu; (u.masterSlave, u.ctrl.nametable)) =
      (.master, 1#2) := by decide
theorem test_oam_dma :
    (let u := (writes [(0x2003#16, 0x10#8), (0x4014#16, 0x02#8)] { s0 with ram := [(0x01, 0x11#8), (0xFF, 0x22#8)] }).ppu
     (u.oam, u.oamAddr)) = ([(0x01, 0x11#8), (0xFF, 0x22#8)], 0x10#8) := by decide +kernel

/-- A and Start held on port 0. -/
def sPad : State :=
  { s0 with controls := { s0.controls with pad0 := ⟨true, false, false, true, false, false, false, false⟩ } }

theorem test_controller_live : reads 3 0x4016#16 (writes [(0x4016#16, 0x01#8)] sPad) = [1#8, 1#8, 1#8] := by decide
theorem test_controller_sequence : reads 10 0x4016#16 (writes [(0x4016#16, 0x01#8), (0x4016#16, 0x00#8)] sPad) =
    [1#8, 0#8, 0#8, 1#8, 0#8, 0#8, 0#8, 0#8, 1#8, 1#8] := by decide
theorem test_controller_port1 : reads 9 0x4017#16 (writes [(0x4016#16, 0x00#8)] sPad) =
    [0#8, 0#8, 0#8, 0#8, 0#8, 0#8, 0#8, 0#8, 1#8] := by decide

/-! ## Interrupts, reset and PPU (sections 8 and 9) -/

/-- T1: NOP at 0x8000, vectors NMI 0x9000 and IRQ 0xA000, both requests pending. -/
def sT1 : State :=
  { s0 with
    prg := [(0x0000, 0xEA#8), (0x1000, 0x40#8), (0x7FFB, 0x90#8), (0x7FFF, 0xA0#8)]
    p := 0x21#8
    nmiPending := true
    irqPending := true }

theorem test_nmi_entry : (stepped sT1).map (fun t => [(t.stk == cell 0xFF 0x21#8), (t.sp == 0xFE#8), (t.p == 0x25#8),
    (t.ctx == .inNmi), (t.retPc == 0x8001#16), (t.pc == 0x9000#16), (t.ppu.cycle == 6)].all id) = some true := by
  decide
theorem test_nmi_entry_clears_both : (stepped sT1).map (fun t => (t.nmiPending, t.irqPending)) = some (false, false) := by
  decide
theorem test_rti : ((stepped sT1).bind stepped).map (fun t => (t.p, t.sp, t.ctx, t.pc, t.ppu.cycle)) =
    some (0x21#8, 0xFF#8, .normal, 0x8001#16, 24) := by decide
theorem test_brk_masked : (stepped { s0 with prg := [(1, 0xEA#8)], p := 0x24#8 }).map
    (fun t => (t.p, t.pc, t.sp, t.ctx, t.irqPending, t.ppu.cycle)) =
      some (0x24#8, 0x8002#16, 0xFF#8, .normal, false, 21) := by decide +kernel
theorem test_brk_taken : (stepped { s0 with prg := [(0x7FFF, 0xA0#8)] }).map
    (fun t => (t.stk, t.p, t.ctx, t.retPc, t.pc)) = some (cell 0xFF 0x30#8, 0x34#8, .inIrq, 0x8002#16, 0xA000#16) := by
  decide +kernel
theorem test_nop : exec .nop s1 = .next s1 := rfl
/-- In the NMI handler, with an IRQ request. -/
def sAborted : State :=
  { s0 with
    ctx := .inNmi
    irqPending := true
    retPc := 0x8123#16
    sp := 0xFE#8
    stk := cell 0xFF 0x01#8 }

theorem test_handler_aborted :
    (let t := serveInterrupts sAborted; (t.p, t.ctx, t.pc, t.irqPending)) = (0x21#8, .normal, 0x8123#16, true) := by
  decide
theorem test_sync_113 : (let t := sync 113 s0; (t.ppu.cycle, t.ppu.scanline)) = (339, 0) := by decide +kernel
theorem test_vblank_requests_nmi : (let t := ppuAdvance 16 { booted smallConfig [] with
      ppu := { Ppu.boot smallConfig with ctrl := ⟨0, false, false, false, false, true⟩ } }
    (t.ppu.vblank, t.nmiPending, t.ppu.scanline, t.ppu.frameCount)) = (true, true, 4, 1) := by decide
theorem test_wrap_clears : (let t := ppuAdvance 20 { booted smallConfig [] with
      ppu := { Ppu.boot smallConfig with sprite0Hit := true, overflow := true } }
    (t.ppu.vblank, t.ppu.sprite0Hit, t.ppu.overflow, t.ppu.scanline, t.ppu.cycle)) = (false, false, false, 0, 0) := by
  decide

/-- The set-up of section 9, on a 24 pixel wide screen, with a mask. -/
def sRender (mask : Byte) : State :=
  { booted smallConfig [] with
    ppu := { Ppu.boot smallConfig with
      mask := mask
      pattern0 := (List.range 8).map (fun n => (0x10 + n, 0xFF#8)) ++ (List.range 8).map (fun n => (0x20 + n, 0xF0#8)) ++
        (List.range 8).map (fun n => (0x28 + n, 0x0F#8))
      nametable0 := [(0, 0x01#8), (1, 0x02#8), (2, 0x02#8), (960, 0x0C#8)]
      pal := [(0x00, 0x0F#8), (0x01, 0x30#8), (0x0D, 0x16#8), (0x0E, 0x27#8), (0x11, 0x2A#8), (0x12, 0x1C#8)]
      oam := [(1, 0x02#8), (3, 0x04#8), (5, 0x01#8), (6, 0x20#8), (7, 0x06#8)] ++
        (List.range 62).map (fun n => (4 * n + 8, 0xF0#8)) } }

/-- The palette bytes of a rendered line: the palette of the tests is grey by palette byte. -/
def lineOf (y : Nat) (s : State) : List Nat := (((renderScanline y s).ppu.work.getD y []).map fun c => c.r.toNat)

theorem test_render_line_0 : lineOf 0 (sRender 0x18#8) = List.replicate 12 0x30 ++ List.replicate 4 0x00 ++
    List.replicate 4 0x16 ++ List.replicate 4 0x27 := by decide
theorem test_render_line_1 : lineOf 1 (sRender 0x18#8) = List.replicate 4 0x30 ++ List.replicate 4 0x2A ++
    List.replicate 4 0x1C ++ List.replicate 4 0x00 ++ List.replicate 4 0x16 ++ List.replicate 4 0x27 := by decide
theorem test_render_line_1_flags : (let u := (renderScanline 1 (sRender 0x18#8)).ppu; (u.sprite0Hit, u.spriteCount, u.overflow)) =
    (true, 2, false) := by decide
theorem test_render_sprites_only : lineOf 1 (sRender 0x10#8) = List.replicate 4 0x0F ++ List.replicate 4 0x2A ++
    List.replicate 4 0x1C ++ List.replicate 2 0x2A ++ List.replicate 10 0x0F := by decide

/-! ## Cycle counts (95_test_vectors.md section 5; R174 for the untaken branch) -/

theorem test_cycle_counts : ([
    (.ldaZpx 0xF0#8, s0, 4), (.ldaIzx 0xFF#8, s0, 6), (.jmpInd 0x02FF#16, s0, 5), (.jsr 0x8040#16, s0, 6), (.rts, s0, 6),
    (.ldaIzy 0x10#8, { s0 with y := 0x01#8, zp := [(0x10, 0xFF#8), (0x11, 0x02#8)] }, 6),
    (.ldaIzy 0xFF#8, { s0 with y := 0x04#8, zp := [(0x00, 0x03#8)] }, 5),
    (.ldaAbx 0xFFFF#16, { s0 with x := 0x02#8 }, 5), (.ldaAby 0x0300#16, { s0 with y := 0xFF#8 }, 4),
    (.staAbx 0x02FF#16, { s0 with x := 0x01#8 }, 5),
    (.bne 0x02#8, { s0 with pc := 0x8002#16 }, 3), (.bne 0x02#8, { s0 with pc := 0x80FF#16 }, 4),
    (.beq 0x02#8, { s0 with pc := 0x8002#16 }, 2), (.bne 0xFC#8, { s0 with pc := 0x8004#16 }, 3),
    (.bne 0xFC#8, { s0 with pc := 0x8102#16 }, 4)] :
    List (Instr × State × Nat)).all (fun r => cyclesOf r.1 r.2.1 == r.2.2) = true := by decide +kernel
theorem test_untaken_branch_reports_no_page : pageFlag (.beq 0x02#8) { s0 with pc := 0x80FF#16 } = false ∧
    pageFlag (.bne 0x02#8) { s0 with pc := 0x80FF#16 } = true := by decide

/-! ## Host and reset entry point (R61, R343) -/

theorem test_restart_request_withdrawn :
    (hostAct (.setRestartRequested false) (hostAct (.setRestartRequested true) s0)).restartRequested = false ∧
    (hostAct (.setRestartRequested true) s0).restartRequested = true := by decide
theorem test_entry_return_resets : (portEntryReturn { s0 with a := 0x12#8, ctx := .inNmi }).a = 0x00#8 := by decide

/-! ## Reset and memory -/

theorem test_reset_memories_canonical : ∀ b : Backing, (State.reset.memory b).wf := by
  intro b
  cases b <;> decide
theorem test_reset_registers : (State.reset.a, State.reset.x, State.reset.y, State.reset.sp, State.reset.p, State.reset.pc) =
    (0x00#8, 0x00#8, 0x00#8, 0xFF#8, 0x20#8, 0x0000#16) := by decide
theorem test_reset_vector : (State.firstReset { testConfig with prgImage := List.replicate 0x20 0xEA#8 }).pc = 0x0000#16 := by
  decide
theorem test_loaded_instruction_runs : (stepped (State.reset.withFetchWord 16 0x42A9)).map (fun t => (t.a, t.pc)) =
    some (0x42#8, 0x8002#16) := by decide
theorem test_write_of_unlisted_value_removes : Memory.write (cell 3 0x07#8) 3 0x00#8 = [] := by decide
theorem test_core_is_the_step : Sys2Proof.core.step = Sys2Proof.Machine.step := rfl

/-! ## Witnesses: concrete states and operands that meet the hypotheses of each statement -/

/-- Every array of `s0` is canonical. -/
theorem s0_arrays : MemoriesWf s0 := by
  intro b
  cases b <;> decide

/-- A program: the instruction at 0x8000 and a NOP at 0xFFFF. -/
def sProg (bs : List Byte) : State := { s0 with prg := Memory.ofBytes 0x8000 bs ++ cell 0x7FFF 0xEA#8 }

theorem test_witness_EncodeOfDecode : decode [0x6D#8, 0x34#8, 0x12#8, 0xFF#8] = .ok (.adcAbs 0x1234#16) := rfl

theorem test_witness_StepRunsDecodedInstruction :
    (let s := sProg [0x6D#8, 0x34#8, 0x12#8]
    s.controls.paused = false ∧ s.cfg.regMirrorHi ≤ 0x8000 ∧ 0x8000 ≤ s.pc.toNat ∧
      s.pc.toNat + (Instr.adcAbs 0x1234#16).length s.cfg.brkLength ≤ 0x10000 ∧
      decodesAs ([peek s s.pc, peek s (s.pc + 1), peek s (s.pc + 2)], .adcAbs 0x1234#16) = true) ∧
    (let s := { sProg [] with pc := 0xFFFF#16 }
    s.pc.toNat + Instr.nop.length s.cfg.brkLength ≤ 0x10000 ∧
      decodesAs ([peek s s.pc, peek s (s.pc + 1), peek s (s.pc + 2)], .nop) = true) := by decide

theorem test_witness_FetchRefusals :
    (s0.controls.paused = false ∧ s0.cfg.regMirrorHi ≤ 0x8000 ∧ s0.cfg.brkLength ≤ 3) ∧
    ({ s0 with pc := 0x7FFF#16 }).pc.toNat < 0x8000 ∧
    (let s := { s0 with prg := cell 0x7FFF 0x02#8, pc := 0xFFFF#16 }
    0x8000 ≤ s.pc.toNat ∧ (lookupOpcode (peek s s.pc)).isNone = true) ∧
    (let s := { s0 with prg := cell 0x7FFE 0x6D#8, pc := 0xFFFE#16 }
    (lookupOpcode (peek s s.pc)).map (fun row => decide (0x10000 < s.pc.toNat + row.length s.cfg.brkLength)) =
      some true) := by decide

theorem test_witness_StepStopsOnlyAsListed :
    step { s0 with prg := cell 0 0x40#8 } = .fault .returnOutsideHandler ∧
    step { s0 with pc := 0x7FFF#16 } = .refused .fetchOutsideProgramStorage ∧
    step { s0 with prg := cell 0 0x02#8 } = .refused (.undocumentedOpcode 0x02#8 0x8000#16) := ⟨rfl, rfl, rfl⟩

theorem test_witness_EveryInstructionCompletes :
    (Instr.adcImm 0#8).mnemonic ≠ .RTI ∧ ({ s0 with ctx := .inNmi }).ctx ≠ .normal ∧
    Instr.rti.mnemonic = .RTI ∧ s0.ctx = .normal := by decide

theorem test_witness_AdcResult : (Instr.adcIzy 0xFF#8).mnemonic = .ADC := rfl

theorem test_witness_SbcResult : (Instr.sbcAbx 0xFFFF#16).mnemonic = .SBC := rfl

theorem test_witness_CompareResults :
    ((Instr.cmpImm 0#8).mnemonic = .CMP ∧ s1.a = s1.a) ∧ ((Instr.cpxZp 0#8).mnemonic = .CPX ∧ s1.x = s1.x) ∧
    ((Instr.cpyAbs 0#16).mnemonic = .CPY ∧ s1.y = s1.y) := by decide

theorem test_witness_IncDecMemory :
    ((Instr.incZp 0#8).mnemonic = .INC ∧ 1 = 1) ∧ ((Instr.decAbx 0x8000#16).mnemonic = .DEC ∧ 255 = 255) := by decide

theorem test_witness_DecimalFlagHasNoEffect :
    (Instr.adcImm 0x50#8).mnemonic ∉ [Mnemonic.PHP, .PLP, .RTI, .SED, .CLD] ∧
    ∃ t, exec (.adcImm 0x50#8) s0 = .next t := ⟨by decide, _, rfl⟩

theorem test_witness_LogicResults :
    (Instr.andImm 0#8).mnemonic = .AND ∧ (Instr.oraIzx 0#8).mnemonic = .ORA ∧ (Instr.eorAbs 0#16).mnemonic = .EOR :=
  ⟨rfl, rfl, rfl⟩

theorem test_witness_BitResult : (Instr.bitAbs 0x2002#16).mnemonic = .BIT := rfl

theorem test_witness_ShiftLeftResults :
    ((Instr.aslAcc).mnemonic = .ASL ∧ 0 = 0) ∧
    ((Instr.rolAbx 0#16).mnemonic = .ROL ∧ (1 : Nat) = (({ s0 with p := 0x21#8 }).flag .C).toNat) := by decide

theorem test_witness_ShiftRightResults :
    ((Instr.lsrZp 0#8).mnemonic = .LSR ∧ 0 = 0) ∧
    ((Instr.rorAcc).mnemonic = .ROR ∧ (1 : Nat) = (({ s0 with p := 0x21#8 }).flag .C).toNat) := by decide

theorem test_witness_LoadResults :
    (Instr.ldaImm 0#8).mnemonic = .LDA ∧ (Instr.ldxZpy 0xFF#8).mnemonic = .LDX ∧ (Instr.ldyAbx 0#16).mnemonic = .LDY :=
  ⟨rfl, rfl, rfl⟩

theorem test_witness_StoreResults : MemoriesWf s0 ∧ (Instr.staAbs 0x1FFF#16).mnemonic = .STA ∧
    mirrorCpu s0.cfg 0x1FFF#16 < 0x800 ∧
    (0x6000 ≤ mirrorCpu s0.cfg 0x6000#16 ∧ mirrorCpu s0.cfg 0x7FFF#16 < 0x8000) ∧
    0x8000 ≤ mirrorCpu s0.cfg 0x8000#16 := ⟨s0_arrays, by decide⟩

theorem test_witness_StackInstructions : s0.stk.wf ∧ ({ s0 with sp := 0x00#8 }).stk.wf := by decide

theorem test_witness_SingleFlagInstructions :
    (Instr.clv, Flag.V, false) ∈ [(Instr.clc, Flag.C, false), (.sec, .C, true), (.cli, .I, false), (.sei, .I, true),
      (.cld, .D, false), (.sed, .D, true), (.clv, .V, false)] := by decide

theorem test_witness_UnusedFlagAlwaysSet :
    (∃ t, exec .plp s0 = .next t) ∧ (∃ t, exec .rti { s0 with ctx := .inIrq } = .next t) ∧
    (sAborted.ctx ≠ .normal ∧ sAborted.pending = true) ∧
    (getFlag .U (sProg [0xEA#8]).p = true ∧ (stepped (sProg [0xEA#8])).isSome = true) :=
  ⟨⟨_, rfl⟩, ⟨_, rfl⟩, by decide, by decide⟩

theorem test_witness_BrkResult :
    ({ s0 with p := 0x24#8 }).flag .I = true ∧ s0.flag .I = false := by decide

theorem test_witness_RtiResult : ({ s0 with ctx := .inIrq }).ctx ≠ .normal ∧ s0.ctx = .normal := by decide

theorem test_witness_CallAndReturn : ({ s0 with sp := 0x00#8 }).stk.wf := by decide

theorem test_witness_BranchResults :
    (Instr.bvs 0xFB#8, ({ s0 with p := 0x60#8 }).flag .V) ∈
      [(Instr.bcc 0xFB#8, !s0.flag .C), (.bvs 0xFB#8, true)] := by decide

theorem test_witness_RegisterFrame : (∃ t, exec (.staAbs 0x2005#16) s0 = .next t) ∧
    writesA (.staAbs 0x2005#16) = false ∧ writesX .STA = false ∧ writesY .STA = false ∧ writesSp .STA = false ∧
    writesPc .STA = false ∧ writesA (.aslZp 0#8) = false := ⟨⟨_, rfl⟩, by decide⟩

theorem test_witness_FlagFrame : (∃ t, exec (.bitZp 0#8) s0 = .next t) ∧ writesFlag .C .BIT = false :=
  ⟨⟨_, rfl⟩, by decide⟩

theorem test_witness_NonStoringMemoryFrame : (∃ t, exec .rolAcc s0 = .next t) ∧ storeAddress .rolAcc s0 = none ∧
    pushes .ROL = false := ⟨⟨_, rfl⟩, by decide⟩

theorem test_witness_StoringMemoryFrame : MemoriesWf s0 ∧ (∃ t, exec (.staAbs 0x0800#16) s0 = .next t) ∧
    storeAddress (.staAbs 0x0800#16) s0 = some 0x0800#16 ∧
    mirrorCpu s0.cfg 0x07FF#16 ≠ mirrorCpu s0.cfg 0x0800#16 := ⟨s0_arrays, ⟨_, rfl⟩, by decide⟩

theorem test_witness_PushingMemoryFrame : MemoriesWf s0 ∧ (∃ t, exec (.jsr 0x9000#16) s0 = .next t) ∧
    pushes .JSR = true ∧ mirrorCpu s0.cfg 0x01FD#16 ≠ 0x100 + s0.sp.toNat ∧
    mirrorCpu s0.cfg 0x01FD#16 ≠ 0x100 + (s0.sp - 1).toNat := ⟨s0_arrays, ⟨_, rfl⟩, by decide⟩

theorem test_witness_DeviceFrame : (∃ t, exec (.jsr 0x2002#16) s0 = .next t) ∧ accessesNoOperand (.jsr 0x2002#16) = true :=
  ⟨⟨_, rfl⟩, by decide⟩

theorem test_witness_WorkRamMirrors : MemoriesWf s0 ∧ 0x7FF < 0x800 ∧ 3 < 4 ∧ 0 < 4 := ⟨s0_arrays, by decide⟩

theorem test_witness_RomWritesDropped : s0.cfg.regMirrorHi ≤ 0x8000 ∧ 0x8000 ≤ (0x8000#16).toNat := by decide

theorem test_witness_FallbackRegion : s0.cfg.regMirrorLo = 0x2008 ∧ s0.cfg.regMirrorHi = 0x3000 ∧
    [0x2008#16, 0x3000#16, 0x3FFF#16, 0x4018#16, 0x5FFF#16].all (fun a => decide
      (a.toNat = 0x2008 ∨ 0x3000 ≤ a.toNat ∧ a.toNat ≤ 0x3FFF ∨ 0x4018 ≤ a.toNat ∧ a.toNat ≤ 0x5FFF)) = true ∧
    [0x2000#16, 0x2009#16, 0x200B#16, 0x2FFD#16, 0x2FFE#16, 0x4014#16, 0x2FFA#16].map (mirrorCpu s0.cfg) =
      [0x2000, 0x2001, 0x2003, 0x2005, 0x2006, 0x4014, 0x2002] := by
  decide

theorem test_witness_StaticReads : s0.cfg.regMirrorHi ≤ 0x6000 ∧
    [0x18FF#16, 0x1900#16, 0x19FF#16, 0x1A00#16, 0x1FFF#16, 0x6000#16, 0x7FFF#16, 0x8000#16].map
      (fun a => if a.toNat < 0x2000 then a.toNat % 0x800 else a.toNat) =
        [0x0FF, 0x100, 0x1FF, 0x200, 0x7FF, 0x6000, 0x7FFF, 0x8000] := by decide

theorem test_witness_PaletteMirrors : s0.ppu.pal.wf ∧ 0xC ∈ [0x0, 0x4, 0x8, 0xC] ∧ 0xFF < 0x100 := by decide

theorem test_witness_PpuSpaceReadBack : (∀ c : PpuBacking, (s0.ppu.memory c).wf) ∧
    0x2000 ≤ (0x2000#16).toNat ∧ (0x2EFF#16).toNat < 0x2F00 ∧ 3 < 4 ∧
    ppuCell .horizontal (mirrorPpu 0x2800#16) ≠ ppuCell .horizontal (mirrorPpu 0x2000#16) := by
  refine ⟨fun c => ?_, by decide⟩
  cases c <;> decide

theorem test_witness_ControlAndMaskWrites : mirrorCpu s0.cfg 0x2FF8#16 = 0x2000 ∧ mirrorCpu s0.cfg 0x2009#16 = 0x2001 ∧
    ({ s0.ppu with masterSlave := .slave } : Ppu).masterSlave ≠ .unset ∧ s0.restartRequested = false ∧
    (∃ t, exec (.staAbs 0x2000#16) s0 = .next t) ∧ (stepped (sProg [0xEA#8])).isSome = true :=
  ⟨by decide, by decide, by decide, by decide, ⟨_, rfl⟩, by decide⟩

theorem test_witness_StatusRead : mirrorCpu s0.cfg 0x2FFA#16 = 0x2002 := by decide

theorem test_witness_OamPorts : mirrorCpu s0.cfg 0x200B#16 = 0x2003 ∧ mirrorCpu s0.cfg 0x2004#16 = 0x2004 := by decide

theorem test_witness_ScrollAndAddressWrites :
    mirrorCpu s0.cfg 0x2FFD#16 = 0x2005 ∧ mirrorCpu s0.cfg 0x2FFE#16 = 0x2006 := by decide

theorem test_witness_DataPort : mirrorCpu s0.cfg 0x2FFF#16 = 0x2007 ∧
    0x3F00 ≤ ({ s0.ppu with vaddr := 0x7F00#16 } : Ppu).vaddr.toNat % 0x4000 ∧
    ({ s0.ppu with vaddr := 0x3EFF#16 } : Ppu).vaddr.toNat % 0x4000 < 0x3F00 := by decide

theorem test_witness_OamDmaCopiesPage : s0.ppu.oam.wf ∧ s0.cfg.regMirrorHi ≤ 0x4000 ∧
    mirrorCpu s0.cfg 0x4014#16 = 0x4014 ∧ (0x1F#8).toNat < 0x20 ∧ 0x60 ≤ (0x60#8).toNat ∧
    0x41 ≤ (0x41#8).toNat ∧ (0x5F#8).toNat < 0x60 := by decide

theorem test_witness_ControllersAndAudio : mirrorCpu s0.cfg 0x4016#16 = 0x4016 ∧ mirrorCpu s0.cfg 0x4017#16 = 0x4017 ∧
    0x4000 ≤ mirrorCpu s0.cfg 0x4000#16 ∧ mirrorCpu s0.cfg 0x4013#16 ≤ 0x4013 ∧
    mirrorCpu s0.cfg 0x4015#16 = 0x4015 := by decide

theorem test_witness_InterruptEntry : s0.ctx = .normal ∧ s0.cfg.regMirrorHi ≤ 0x8000 ∧
    (s0.nmiPending = false ∧ s0.irqPending = false) ∧ sT1.nmiPending = true ∧
    ({ s0 with irqPending := true }).irqPending = true := by decide

theorem test_witness_HandlerAbort : sAborted.ctx ≠ .normal ∧ sAborted.irqPending = true ∧
    (({ sAborted with irqPending := false }).nmiPending = false ∧
      ({ sAborted with irqPending := false }).irqPending = false) := by decide

/-- Paused, with a restart requested. -/
def sHeld : State := { s0 with controls := { s0.controls with paused := true }, restartRequested := true }

theorem test_witness_RestartAndPause : sHeld.controls.paused = true ∧ sHeld.restartRequested = true ∧
    ({ sHeld with restartRequested := false }).restartRequested = false ∧ sHeld.pending = false := by decide

/-- The small PPU at the end of a line. -/
def sLineEnd (l : Nat) : State := { booted smallConfig [] with ppu := { Ppu.boot smallConfig with cycle := 3, scanline := l } }

theorem test_witness_VblankAndNmi : atLineEnd (sLineEnd 3) = true ∧ (sLineEnd 3).ppu.scanline = smallConfig.vblankStart ∧
    atLineEnd (booted smallConfig []) = false := by decide

theorem test_witness_FrameHandover : Frame.shaped (sLineEnd 2).cfg (sLineEnd 2).ppu.work ∧ atLineEnd (sLineEnd 2) = true ∧
    (sLineEnd 2).ppu.scanline = (sLineEnd 2).cfg.visibleHeight ∧ 1 < (sLineEnd 2).cfg.visibleHeight ∧
    ¬(atLineEnd (sLineEnd 1) = true ∧ (sLineEnd 1).ppu.scanline = (sLineEnd 1).cfg.visibleHeight) := by
  unfold Frame.shaped
  decide

theorem test_witness_CountersAndWrap : atLineEnd (sLineEnd 4) = true ∧
    (sLineEnd 4).ppu.scanline + 1 = (sLineEnd 4).cfg.totalScanlines := by decide

theorem test_witness_SpriteFlags : (sRender 0x18#8).ppu.mask.getLsbD 4 = true ∧ (sRender 0x08#8).ppu.mask.getLsbD 4 = false := by
  decide

theorem test_witness_BackgroundScanline : Frame.shaped (sRender 0x18#8).cfg (sRender 0x18#8).ppu.work ∧
    1 < (sRender 0x18#8).cfg.visibleHeight ∧ 23 < (sRender 0x18#8).cfg.width ∧ 0 ≠ 1 := by
  unfold Frame.shaped
  decide

theorem test_witness_ResetValues :
    ((restart { s0 with cfg := { testConfig with chrImage := [0x01#8, 0x02#8] } }).ppu.pattern0.read 1) = 0x02#8 ∧
    0xFFF < 0x1000 ∧ 0x7FFF < 0x8000 := by decide

theorem test_witness_PristineCopyNeverWritten : (∃ t, step s0 = .next t) ∧ s0.prg = s0.prgPristine := ⟨⟨_, rfl⟩, by decide⟩

theorem test_witness_LayersAgree : (Instr.brk).mnemonic.isControlTransfer = false ∧
    (Instr.rorAcc).mnemonic.isControlTransfer = false := by decide

theorem test_witness_InvariantAtReset : testConfig.WellFormed ∧ smallConfig.WellFormed :=
  ⟨test_config_accepted, test_config_small_accepted⟩

theorem test_witness_StepKeepsInvariant : Inv s0 ∧ ∃ t, step s0 = .next t :=
  ⟨inv_pc _ (inv_boot _ test_config_accepted _ (Memory.ofBytes_good _ _) _) _ _ _ _ _, _, rfl⟩

end Sys2Proof.Tests
end

/-! # The flag byte through a step (10_state.md R27)

P is written in two ways only: one flag other than the unused one at a time, or as a whole byte with bit 5 forced.
`FlagUpdate` says so; every instruction, every part of the checkpoint and so every step is a `FlagUpdate` of P. -/

section
namespace Sys2Proof.Machine

/-! ## What a step is made of -/

/-- What every byte read keeps, the fetch keeps: it only reads. -/
theorem fetch_induct (motive : State → Prop) (hread : ∀ a t, motive t → motive (cpuRead a t).2) {s : State}
    {f : Fetched} (h : motive s) (hf : fetch s = .ok f) : motive f.state := by
  have h0 := hread s.pc s h
  have h1 := hread (s.pc + 1) _ h0
  have h2 := hread (s.pc + 2) _ h1
  simp only [fetch] at hf
  split at hf
  · cases hf
  split at hf
  · cases hf
  split at hf
  · cases hf; exact h0
  split at hf
  · cases hf
  split at hf
  · cases hf; exact h1
  split at hf <;> cases hf
  exact h2

/-- A step into a next state is a held pause, or a fetch, an instruction and its checkpoint. -/
theorem step_next_cases {s t : State} (h : step s = .next t) :
    (s.controls.paused = true ∧ t = holdPaused s) ∨
    ∃ f u, s.controls.paused = false ∧ fetch s = .ok f ∧ exec f.instr (advancePc f.len f.state) = .next u ∧
      t = sync (cyclesOf f.instr (advancePc f.len f.state)) u := by
  unfold step at h
  split at h
  next hp => cases h; exact .inl ⟨hp, rfl⟩
  next hp =>
    unfold runFetched at h
    split at h
    next => cases h
    next f hf =>
      unfold executeAndSync at h
      split at h <;> cases h
      next u hu => exact .inr ⟨f, u, by simpa using hp, hf, hu, rfl⟩

/-! ## The flag byte each shared operation leaves -/

@[simp] theorem push_p (v : Byte) (s : State) : (push v s).p = s.p := by simp [push]
@[simp] theorem pull_p (s : State) : (pull s).2.p = s.p := by simp [pull]

@[simp] theorem adc_p (o : Source) (s : State) :
    (adc o s).p = arithFlags (addCarry s.a (readSource o s).1 (s.flag .C)) s.p := rfl
@[simp] theorem sbc_p (o : Source) (s : State) :
    (sbc o s).p = arithFlags (subBorrow s.a (readSource o s).1 (s.flag .C)) s.p := rfl
@[simp] theorem compareA_p (o : Source) (s : State) :
    (compareA o s).p = compareFlags s.a (readSource o s).1 s.p := rfl
@[simp] theorem compareX_p (o : Source) (s : State) :
    (compareX o s).p = compareFlags s.x (readSource o s).1 s.p := rfl
@[simp] theorem compareY_p (o : Source) (s : State) :
    (compareY o s).p = compareFlags s.y (readSource o s).1 s.p := rfl
@[simp] theorem inc_p (ea : Addr) (s : State) : (inc ea s).p = setZN ((cpuRead ea s).1 + 1) s.p := rfl
@[simp] theorem dec_p (ea : Addr) (s : State) : (dec ea s).p = setZN ((cpuRead ea s).1 - 1) s.p := rfl
@[simp] theorem incX_p (s : State) : (incX s).p = setZN (s.x + 1) s.p := rfl
@[simp] theorem incY_p (s : State) : (incY s).p = setZN (s.y + 1) s.p := rfl
@[simp] theorem decX_p (s : State) : (decX s).p = setZN (s.x - 1) s.p := rfl
@[simp] theorem decY_p (s : State) : (decY s).p = setZN (s.y - 1) s.p := rfl

@[simp] theorem andOp_p (o : Source) (s : State) : (andOp o s).p = setZN (s.a &&& (readSource o s).1) s.p := rfl
@[simp] theorem oraOp_p (o : Source) (s : State) : (oraOp o s).p = setZN (s.a ||| (readSource o s).1) s.p := rfl
@[simp] theorem eorOp_p (o : Source) (s : State) : (eorOp o s).p = setZN (s.a ^^^ (readSource o s).1) s.p := rfl
@[simp] theorem bitTest_p (ea : Addr) (s : State) : (bitTest ea s).p = bitFlags s.a (cpuRead ea s).1 s.p := rfl
@[simp] theorem asl_p (l : Place) (s : State) :
    (asl l s).p = shiftFlags (shiftLeft (readPlace l s).1 (s.flag .C)) s.p := rfl
@[simp] theorem lsr_p (l : Place) (s : State) :
    (lsr l s).p = shiftFlags (shiftRight (readPlace l s).1 (s.flag .C)) s.p := rfl
@[simp] theorem rol_p (l : Place) (s : State) :
    (rol l s).p = shiftFlags (rotateLeft (readPlace l s).1 (s.flag .C)) s.p := rfl
@[simp] theorem ror_p (l : Place) (s : State) :
    (ror l s).p = shiftFlags (rotateRight (readPlace l s).1 (s.flag .C)) s.p := rfl

@[simp] theorem lda_p (o : Source) (s : State) : (lda o s).p = setZN (readSource o s).1 s.p := rfl
@[simp] theorem ldx_p (o : Source) (s : State) : (ldx o s).p = setZN (readSource o s).1 s.p := rfl
@[simp] theorem ldy_p (o : Source) (s : State) : (ldy o s).p = setZN (readSource o s).1 s.p := rfl
@[simp] theorem storeA_p (ea : Addr) (s : State) : (storeA ea s).p = s.p := cpuWrite_p ea s.a s
@[simp] theorem storeX_p (ea : Addr) (s : State) : (storeX ea s).p = s.p := cpuWrite_p ea s.x s
@[simp] theorem storeY_p (ea : Addr) (s : State) : (storeY ea s).p = s.p := cpuWrite_p ea s.y s
@[simp] theorem copyToA_p (v : Byte) (s : State) : (copyToA v s).p = setZN v s.p := rfl
@[simp] theorem copyToX_p (v : Byte) (s : State) : (copyToX v s).p = setZN v s.p := rfl
@[simp] theorem copyToY_p (v : Byte) (s : State) : (copyToY v s).p = setZN v s.p := rfl

@[simp] theorem pullA_p (s : State) : (pullA s).p = setZN (pull s).1 s.p := rfl
@[simp] theorem pullP_p (s : State) : (pullP s).p = wholeByte (pull s).1 := rfl
@[simp] theorem writeFlag_p (f : Flag) (b : Bool) (s : State) : (writeFlag f b s).p = setFlag f b s.p := rfl

@[simp] theorem breakRequest_p (s : State) :
    (breakRequest s).p = if s.flag .I then s.p else setFlag .B true s.p := by
  unfold breakRequest; split <;> rfl
@[simp] theorem branch_p (b : Bool) (d : Byte) (s : State) : (branch b d s).p = s.p := by cases b <;> rfl
@[simp] theorem jumpSubroutine_p (w : Addr) (s : State) : (jumpSubroutine w s).p = s.p := by simp [jumpSubroutine]
@[simp] theorem returnSubroutine_p (s : State) : (returnSubroutine s).p = s.p := by simp [returnSubroutine]
@[simp] theorem jumpThrough_p (w : Addr) (s : State) : (jumpThrough w s).p = s.p := by
  simp [jumpThrough, jumpIndirect]

@[simp] theorem read16_p (a : Addr) (s : State) : (read16 a s).2.p = s.p := by simp [read16]
@[simp] theorem enterInterrupt_p (s : State) : (enterInterrupt s).p = setFlag .I true s.p := by
  simp [enterInterrupt, enterHandler]
@[simp] theorem returnFromHandler_p (s : State) : (returnFromHandler s).p = wholeByte (pull s).1 := rfl
@[simp] theorem restart_p (s : State) : (restart s).p = wholeByte 0 := rfl

/-! ## The writes of the flag byte -/

/-- `q` comes from `p` by writes of single flags, never the unused one, and of whole bytes with bit 5 forced. -/
inductive FlagUpdate (p : Byte) : Byte → Prop where
  | kept : FlagUpdate p p
  | flag {q : Byte} (f : Flag) (b : Bool) (hf : f ≠ .U) (h : FlagUpdate p q) : FlagUpdate p (setFlag f b q)
  | whole (v : Byte) : FlagUpdate p (wholeByte v)

/-- A flag update keeps a set unused flag set. -/
theorem FlagUpdate.unused {p q : Byte} (h : FlagUpdate p q) (hp : getFlag .U p = true) : getFlag .U q = true := by
  induction h with
  | kept => exact hp
  | flag f b hf _ ih => simpa [hf.symm] using ih
  | whole v => simp

theorem FlagUpdate.trans {p q r : Byte} (hpq : FlagUpdate p q) (hqr : FlagUpdate q r) : FlagUpdate p r := by
  induction hqr with
  | kept => exact hpq
  | flag f b hf _ ih => exact .flag f b hf ih
  | whole v => exact .whole v

theorem FlagUpdate.zn {p q : Byte} (v : Byte) (h : FlagUpdate p q) : FlagUpdate p (setZN v q) :=
  .flag .N _ (by decide) (.flag .Z _ (by decide) h)

/-! The flag computations of the instructions write single flags. -/

theorem flagUpdate_arithFlags (r : Alu) (p : Byte) : FlagUpdate p (arithFlags r p) :=
  .zn _ (.flag .V _ (by decide) (.flag .C _ (by decide) .kept))

theorem flagUpdate_compareFlags (reg m p : Byte) : FlagUpdate p (compareFlags reg m p) :=
  .zn _ (.flag .C _ (by decide) .kept)

theorem flagUpdate_bitFlags (a m p : Byte) : FlagUpdate p (bitFlags a m p) :=
  .flag .N _ (by decide) (.flag .Z _ (by decide) (.flag .V _ (by decide) .kept))

theorem flagUpdate_shiftFlags (r : Shifted) (p : Byte) : FlagUpdate p (shiftFlags r p) :=
  .zn _ (.flag .C _ (by decide) .kept)

/-! ## A step is a flag update -/

/-- Every instruction writes P by a flag update. -/
theorem exec_flagUpdate {i : Instr} {s t : State} (h : exec i s = .next t) : FlagUpdate s.p t.p := by
  cases i
  case rti =>
    rw [exec_rti] at h
    split at h <;> cases h
    exact .whole _
  case brk =>
    cases h
    rw [breakRequest_p]
    split
    · exact .kept
    · exact .flag .B _ (by decide) .kept
  -- Every other arm leaves P, or computes it by one of the flag functions above.
  all_goals
    cases h
    simp [FlagUpdate.kept, FlagUpdate.flag, FlagUpdate.whole, FlagUpdate.zn, flagUpdate_arithFlags,
      flagUpdate_compareFlags, flagUpdate_bitFlags, flagUpdate_shiftFlags]

/-- An entry sets interrupt-disable; an abort writes the pulled byte whole. -/
theorem serveInterrupts_flagUpdate (s : State) : FlagUpdate s.p (serveInterrupts s).p := by
  unfold serveInterrupts
  split
  · split
    · rw [enterInterrupt_p]
      exact .flag .I _ (by decide) .kept
    · exact .whole _
  · exact .kept

theorem serveRestart_flagUpdate (s : State) : FlagUpdate s.p (serveRestart s).p := by
  unfold serveRestart
  split
  · exact .whole 0
  · exact .kept

theorem sync_flagUpdate (n : Nat) (s : State) : FlagUpdate s.p (sync n s).p := by
  have h := (serveInterrupts_flagUpdate (ppuAdvance (ppuCpuRatio * n) s)).trans (serveRestart_flagUpdate _)
  rwa [ppuAdvance_p] at h

/-- Every step into a next state writes P by flag updates alone. -/
theorem step_flagUpdate {s t : State} (h : step s = .next t) : FlagUpdate s.p t.p := by
  obtain ⟨-, rfl⟩ | ⟨f, u, -, hf, hu, rfl⟩ := step_next_cases h
  · exact serveRestart_flagUpdate s
  · have hp : f.state.p = s.p := fetch_induct (·.p = s.p) (fun a t ht => by simpa using ht) rfl hf
    have hs := (exec_flagUpdate hu).trans (sync_flagUpdate (cyclesOf f.instr (advancePc f.len f.state)) u)
    rwa [advancePc, State.setPc_p, hp] at hs

/-- Settles O23: the whole-byte writes are `wholeByte` by definition, and a step is a `FlagUpdate` of P. -/
theorem unusedFlagAlwaysSet : Obligations.UnusedFlagAlwaysSet := by
  intro s
  refine ⟨fun t h => ?plp, fun t h => ?rti, fun hctx hpend => ?abort, ?reset, fun hU t h => ?step⟩
  case plp => cases h; rfl
  case rti =>
    rw [exec_rti] at h
    split at h <;> cases h
    rfl
  case abort =>
    rw [serveInterrupts, if_pos hpend, if_neg hctx]
    rfl
  case reset => rfl
  case step => exact (step_flagUpdate h).unused hU

end Sys2Proof.Machine
end

/-! # Writes to program storage, and the palette's mirrors (20_memory.md R75, R101) -/

section
namespace Sys2Proof.Machine

/-! ## Program storage -/

/-- `CpuWrite` ends at the ROM test, before translation and dispatch, wherever the mirrored address is in program
storage (R75). -/
theorem cpuWrite_rom {a : Addr} {v : Byte} {s : State} (h : 0x8000 ≤ mirrorCpu s.cfg a) : cpuWrite a v s = s :=
  if_pos h

/-- Settles O36: the register mirror ends below the address, so the address is its own mirror. -/
theorem romWritesDropped : Obligations.RomWritesDropped := by
  intro s a v hmir ha
  have hm : mirrorCpu s.cfg a = a.toNat := mirrorCpu_high _ _ (by omega) (by omega)
  exact cpuWrite_rom (hm ▸ ha)

/-! ## The palette -/

/-- A read sees only the mirrored address. -/
theorem ppuRead_congr {a b : Addr} (h : mirrorPpu a = mirrorPpu b) (mir : Mirroring) (u : Ppu) :
    ppuRead mir u a = ppuRead mir u b := by
  simp only [ppuRead, h]

/-- A write sees only the mirrored address. -/
theorem ppuWrite_congr {a b : Addr} (h : mirrorPpu a = mirrorPpu b) (mir : Mirroring) (u : Ppu) (v : Byte) :
    ppuWrite mir u a v = ppuWrite mir u b v := by
  simp only [ppuWrite, h]

/-- What is written to a palette address reads back at every address of the same mirrored address. -/
theorem ppuRead_ppuWrite_palette {a b : Addr} (ha : 0x3F00 ≤ mirrorPpu a) (h : mirrorPpu b = mirrorPpu a)
    (mir : Mirroring) (u : Ppu) (v : Byte) (hw : u.pal.wf) : ppuRead mir (ppuWrite mir u a v) b = v := by
  have hcell : (ppuCell mir (mirrorPpu a)).1 = .pal := by
    rw [ppuCell, if_neg (by omega), if_neg (by omega), if_neg (by omega)]
  rw [ppuRead_ppuWrite u mir a b v (by rw [hcell]; exact hw), if_pos (by rw [h])]

/-- The mirrored address of a palette address: the 32-byte wrap, then the redirect of the four sprite-palette
entries 0 to their background counterparts (R101). -/
theorem mirrorPpu_palette {n : Nat} (hn : n < 0x100) :
    mirrorPpu (BitVec.ofNat 16 (0x3F00 + n)) =
      0x3F00 + if n % 0x20 ∈ [0x10, 0x14, 0x18, 0x1C] then n % 0x20 - 0x10 else n % 0x20 := by
  have hm : (0x3F00 + n) % 2 ^ 16 % 0x4000 = 0x3F00 + n := by omega
  have hq : (0x3F00 + n) % 0x20 = n % 0x20 := by omega
  simp only [mirrorPpu, BitVec.toNat_ofNat, hm, hq, List.mem_cons, List.not_mem_nil, or_false]
  rw [if_pos (by omega)]
  split_ifs <;> omega

/-- The palette repeats every 32 bytes. -/
theorem mirrorPpu_palette_wrap {n : Nat} (hn : n < 0x100) :
    mirrorPpu (BitVec.ofNat 16 (0x3F00 + n)) = mirrorPpu (BitVec.ofNat 16 (0x3F00 + n % 0x20)) := by
  rw [mirrorPpu_palette hn, mirrorPpu_palette (by omega : n % 0x20 < 0x100), Nat.mod_mod]

/-- A sprite-palette entry 0 and its background counterpart have one mirrored address, the background one. -/
theorem mirrorPpu_sprite_entry {k : Nat} (hk : k ∈ [0x0, 0x4, 0x8, 0xC]) :
    mirrorPpu (BitVec.ofNat 16 (0x3F10 + k)) = 0x3F00 + k ∧ mirrorPpu (BitVec.ofNat 16 (0x3F00 + k)) = 0x3F00 + k := by
  revert k
  decide

/-- Settles O39: the addresses that must agree have one mirrored address, the only thing a read or a write sees. -/
theorem paletteMirrors : Obligations.PaletteMirrors := by
  intro u mir v
  refine ⟨fun k hw hk => ?entry, fun n hn => ?wrap⟩
  case entry =>
    obtain ⟨hspr, hbg⟩ := mirrorPpu_sprite_entry hk
    have hm := hspr.trans hbg.symm
    exact ⟨ppuRead_ppuWrite_palette (by omega) hm.symm mir u v hw,
      ppuRead_ppuWrite_palette (by omega) hm mir u v hw, ppuRead_congr hm mir u⟩
  case wrap =>
    have hm := mirrorPpu_palette_wrap hn
    exact ⟨ppuRead_congr hm mir u, ppuWrite_congr hm mir u v⟩

end Sys2Proof.Machine
end

/-! # ADC, SBC and the compares (41_arithmetic_compare.md R193 to R197)

Every form is one shared operation on the operand it reads; what is left to say is the arithmetic of bytes and the flags
it leaves. -/

section
namespace Sys2Proof.Machine

/-! ## The flags left -/

@[simp] theorem readSource_imm (v : Byte) (s : State) : readSource (.imm v) s = (v, s) := rfl

/-- A read of the operand keeps every flag. -/
@[simp] theorem readSource_flag (o : Source) (s : State) (f : Flag) : (readSource o s).2.flag f = s.flag f := by
  simp [State.flag]

theorem znFrom_setZN (v p : Byte) : ZNFrom v (setZN v p) := by
  simp [ZNFrom, beq_eq_decide]

/-- An add or a subtract leaves its carry, its overflow, and Z and N of its result. -/
theorem arithFlags_flags (r : Alu) (p : Byte) :
    getFlag .C (arithFlags r p) = r.carry ∧ getFlag .V (arithFlags r p) = r.overflow ∧
      ZNFrom r.result (arithFlags r p) ∧ FlagsKeptExcept [.C, .V, .Z, .N] p (arithFlags r p) := by
  refine ⟨by simp [getFlag_arithFlags], by simp [getFlag_arithFlags], znFrom_setZN _ _, fun f hf => ?_⟩
  simp only [List.mem_cons, List.not_mem_nil, or_false, not_or] at hf
  simp [getFlag_arithFlags, hf]

/-- A compare leaves "register >= operand" in C, and Z and N of the truncated difference. -/
theorem compareFlags_flags (reg m p : Byte) :
    getFlag .C (compareFlags reg m p) = decide (m.toNat ≤ reg.toNat) ∧
      ZNFrom (reg - m) (compareFlags reg m p) ∧ FlagsKeptExcept [.C, .Z, .N] p (compareFlags reg m p) := by
  refine ⟨by simp [getFlag_compareFlags], znFrom_setZN _ _, fun f hf => ?_⟩
  simp only [List.mem_cons, List.not_mem_nil, or_false, not_or] at hf
  simp [getFlag_compareFlags, hf]

/-- The overflow bit of `Alu`, tested by `!=`, in the form the statements have it. -/
theorem bne_eq_decide_ne (v w : Byte) : (v != w) = decide (v ≠ w) := by
  simp [bne, beq_eq_decide]

/-! ## The arithmetic of bytes -/

/-- An integer truncated to a byte is its residue modulo 256. -/
theorem ofInt_eq_ofNat_emod (n : Int) : BitVec.ofInt 8 n = BitVec.ofNat 8 (n % 256).toNat :=
  BitVec.ofNatLT_eq_ofNat _

/-- The truncated difference of two bytes, by naturals alone. -/
theorem sub_eq_ofNat (a b : Byte) : a - b = BitVec.ofNat 8 (a.toNat + 256 - b.toNat) := by
  rw [BitVec.sub_def]
  congr 1
  omega

/-- The operand R194 gives ADC is the complement. -/
theorem xor_0xFF (m : Byte) : m ^^^ 0xFF#8 = ~~~m := BitVec.xor_allOnes

/-- Subtracting is adding the complement: the law R194 derives. The sum is the difference plus 256, so the results agree
and "carry out" is "no borrow". -/
theorem addCarry_complement (a m : Byte) (c : Bool) : addCarry a (m ^^^ 0xFF#8) c = subBorrow a m c := by
  have hm : (m ^^^ 0xFF#8).toNat = 255 - m.toNat := by rw [xor_0xFF, BitVec.toNat_not]
  have hsum : ((a.toNat + (m ^^^ 0xFF#8).toNat + c.toNat : Nat) : Int) =
      (a.toNat - m.toNat - (1 - c.toNat : Int)) + 256 := by omega
  have hres : BitVec.ofNat 8 (a.toNat + (m ^^^ 0xFF#8).toNat + c.toNat) =
      BitVec.ofInt 8 (a.toNat - m.toNat - (1 - c.toNat : Int)) := by
    rw [← BitVec.ofInt_natCast, hsum, ofInt_eq_ofNat_emod, ofInt_eq_ofNat_emod, Int.add_emod_right]
  have hcarry : a.toNat + (m ^^^ 0xFF#8).toNat + c.toNat > 0xFF ↔ (a.toNat - m.toNat - (1 - c.toNat : Int)) ≥ 0 := by
    omega
  have hsign : ~~~(a ^^^ (m ^^^ 0xFF#8)) = a ^^^ m := by rw [← BitVec.xor_assoc, xor_0xFF, BitVec.not_not]
  simp only [addCarry, subBorrow, hres, hsign, decide_eq_decide.2 hcarry]

/-- ADC of the complemented operand, once the operand is read, is SBC. -/
theorem adc_complement (o : Source) (s : State) :
    adc (.imm ((readSource o s).1 ^^^ 0xFF#8)) (readSource o s).2 = sbc o s := by
  simp [adc, sbc, addCarry_complement]

/-! ## The statements -/

/-- Settles O8: every form is `adc` on its operand, and its flags are those of `addCarry`. -/
theorem adcResult : Obligations.AdcResult := by
  intro i s h
  obtain ⟨o, hop, hexec⟩ := exec_of_ADC i s h
  obtain ⟨hC, hV, hZN, hkept⟩ := arithFlags_flags (addCarry s.a (readSource o s).1 (s.flag .C)) s.p
  exact ⟨_, _, _, hop, hexec, hC, hV.trans (bne_eq_decide_ne _ _), hZN, hkept⟩

/-- Settles O9: every form is `sbc` on its operand, its flags are those of `subBorrow`, and `subBorrow` is `addCarry` of
the complement. -/
theorem sbcResult : Obligations.SbcResult := by
  intro i s h
  obtain ⟨o, hop, hexec⟩ := exec_of_SBC i s h
  obtain ⟨hC, hV, hZN, hkept⟩ := arithFlags_flags (subBorrow s.a (readSource o s).1 (s.flag .C)) s.p
  refine ⟨(readSource o s).1, (readSource o s).2, (sbc o s).p, hop, ?_⟩
  intro diff r
  have hr : r = (subBorrow s.a (readSource o s).1 (s.flag .C)).result := (ofInt_eq_ofNat_emod diff).symm
  rw [hr]
  exact ⟨hexec, hC, hV.trans (bne_eq_decide_ne _ _), hZN, hkept, by rw [exec_adcImm, adc_complement, hexec]⟩

/-- Settles O11: every form of the three compares is `compareFlags` of its register on its operand. -/
theorem compareResults : Obligations.CompareResults := by
  intro i s reg h
  have hform : ∃ o, operandOf i s = some (readSource o s) ∧
      exec i s = .next ((readSource o s).2.setP (compareFlags reg (readSource o s).1 s.p)) := by
    obtain ⟨h, rfl⟩ | ⟨h, rfl⟩ | ⟨h, rfl⟩ := h
    · exact exec_of_CMP i s h
    · exact exec_of_CPX i s h
    · exact exec_of_CPY i s h
  obtain ⟨o, hop, hexec⟩ := hform
  obtain ⟨hC, hZN, hkept⟩ := compareFlags_flags reg (readSource o s).1 s.p
  rw [sub_eq_ofNat] at hZN
  exact ⟨_, _, _, hop, hexec, hC, hZN, hkept⟩

end Sys2Proof.Machine
end

/-! # BIT, and the shifts and rotates (42_logic_shift.md R224 to R229)

BIT is one read and three flags. The shifts and rotates share one rule, `shiftOp`: each of them is settled by the byte it
computes. -/

section
namespace Sys2Proof.Machine

/-! ## The flags left -/

/-- BIT leaves bits 6 and 7 of the operand in V and N, and in Z whether it has no bit in common with A. -/
theorem bitFlags_flags (a m p : Byte) :
    getFlag .V (bitFlags a m p) = m.getLsbD 6 ∧ getFlag .Z (bitFlags a m p) = decide ((m &&& a) = 0#8) ∧
      getFlag .N (bitFlags a m p) = m.getLsbD 7 ∧ FlagsKeptExcept [.V, .Z, .N] p (bitFlags a m p) := by
  refine ⟨by simp [getFlag_bitFlags], by simp [getFlag_bitFlags, beq_eq_decide], by simp [getFlag_bitFlags],
    fun f hf => ?_⟩
  simp only [List.mem_cons, List.not_mem_nil, or_false, not_or] at hf
  simp [getFlag_bitFlags, hf]

/-- A shift leaves the bit shifted out in C, and Z and N of its result. -/
theorem shiftFlags_flags (r : Shifted) (p : Byte) :
    getFlag .C (shiftFlags r p) = r.carry ∧ ZNFrom r.result (shiftFlags r p) ∧
      FlagsKeptExcept [.C, .Z, .N] p (shiftFlags r p) := by
  refine ⟨by simp [getFlag_shiftFlags], znFrom_setZN _ _, fun f hf => ?_⟩
  simp only [List.mem_cons, List.not_mem_nil, or_false, not_or] at hf
  simp [getFlag_shiftFlags, hf]

/-! ## The shifted byte, as arithmetic -/

/-- A rotate to the left doubles the byte and adds the old carry, modulo 256. -/
theorem rotateLeft_eq (v : Byte) (c : Bool) :
    rotateLeft v c = ⟨BitVec.ofNat 8 (v.toNat * 2 + c.toNat), v.getLsbD 7⟩ := by
  have hshift : v <<< 1 = BitVec.ofNat 8 (v.toNat <<< 1) := rfl
  have hor : v.toNat <<< 1 ||| c.toNat = v.toNat * 2 + c.toNat := by
    rw [← Nat.shiftLeft_add_eq_or_of_lt (by simpa using c.toNat_lt), Nat.shiftLeft_eq]
  rw [rotateLeft, hshift, ← BitVec.ofNat_or, hor]

/-- A shift to the left is a rotate with carry clear. -/
theorem shiftLeft_eq_rotateLeft (v : Byte) (c : Bool) : shiftLeft v c = rotateLeft v false := by
  simp [shiftLeft, rotateLeft]

/-- A shift to the right is a rotate with carry clear. -/
theorem shiftRight_eq_rotateRight (v : Byte) (c : Bool) : shiftRight v c = rotateRight v false := by
  have hhalf : v >>> 1 = BitVec.ofNat 8 (v.toNat / 2) := by
    apply BitVec.eq_of_toNat_eq
    simp only [BitVec.toNat_ushiftRight, Nat.shiftRight_eq_div_pow, BitVec.toNat_ofNat]
    omega
  simp [shiftRight, rotateRight, hhalf]

/-! ## One rule for every form -/

/-- An instruction that is `shiftOp` with byte function `f` at its place, where `f` at the carry of `s` answers `r v`
and shifts out `out v`: one read, one write of the same place, then C, Z and N (R229, D13). -/
theorem exec_shiftOp {i : Instr} {s : State} {f : Byte → Bool → Shifted} {r : Byte → Byte} {out : Byte → Bool}
    (hexec : (i.mode = .acc ∧ exec i s = .next (shiftOp f .acc s)) ∨
      ∃ ea, modeAddress i.mode s = some ea ∧ exec i s = .next (shiftOp f (.mem ea) s))
    (hf : ∀ v, f v (s.flag .C) = ⟨r v, out v⟩) :
    ∃ v t p',
      ((i.mode = .acc ∧ v = s.a ∧ t = { s with a := r v }) ∨
        (∃ ea, modeAddress i.mode s = some ea ∧ v = (cpuRead ea s).1 ∧ t = cpuWrite ea (r v) (cpuRead ea s).2)) ∧
      exec i s = .next { t with p := p' } ∧
      getFlag .C p' = out v ∧ ZNFrom (r v) p' ∧ FlagsKeptExcept [.C, .Z, .N] s.p p' := by
  have hop (l : Place) : shiftOp f l s = { writePlace l (r (readPlace l s).1) (readPlace l s).2 with
      p := shiftFlags ⟨r (readPlace l s).1, out (readPlace l s).1⟩ s.p } := by
    simp only [shiftOp, hf, State.setP]
  simp only [hop] at hexec
  obtain ⟨hmode, hexec⟩ | ⟨ea, hea, hexec⟩ := hexec
  · exact ⟨s.a, _, _, .inl ⟨hmode, rfl, rfl⟩, hexec, shiftFlags_flags _ _⟩
  · exact ⟨(cpuRead ea s).1, _, _, .inr ⟨ea, hea, rfl, rfl⟩, hexec, shiftFlags_flags _ _⟩

/-! ## The statements -/

/-- Settles O15: both forms are `bitTest` at their address, one read and the flags of `bitFlags`. -/
theorem bitResult : Obligations.BitResult := by
  intro i s h
  obtain ⟨ea, -, hop, hexec⟩ := exec_of_BIT i s h
  exact ⟨_, _, _, hop, hexec, bitFlags_flags _ _ _⟩

/-- Settles O16: every form is `shiftOp`, and its byte is the rotate's, with carry clear for ASL. -/
theorem shiftLeftResults : Obligations.ShiftLeftResults := by
  intro i s c h
  obtain ⟨h, rfl⟩ | ⟨h, rfl⟩ := h
  · exact exec_shiftOp (exec_of_ASL i s h) fun v => (shiftLeft_eq_rotateLeft v _).trans (rotateLeft_eq v false)
  · exact exec_shiftOp (exec_of_ROL i s h) fun v => rotateLeft_eq v _

/-- Settles O17: every form is `shiftOp`, and its byte is the rotate's, with carry clear for LSR. -/
theorem shiftRightResults : Obligations.ShiftRightResults := by
  intro i s c h
  obtain ⟨h, rfl⟩ | ⟨h, rfl⟩ := h
  · exact exec_shiftOp (exec_of_LSR i s h) fun v => shiftRight_eq_rotateRight v _
  · exact exec_shiftOp (exec_of_ROR i s h) fun _ => rfl

end Sys2Proof.Machine
end

/-! # The single-flag instructions (44_stack_flags.md R286 to R292)

All seven are one write of one flag, `writeFlag`; what it leaves of P is said once. -/

section
namespace Sys2Proof.Machine

/-- A write of one flag leaves its value in that flag and every other flag as it was. -/
theorem setFlag_flags (f : Flag) (b : Bool) (p : Byte) :
    getFlag f (setFlag f b p) = b ∧ FlagsKeptExcept [f] p (setFlag f b p) := by
  refine ⟨by simp, fun g hg => ?_⟩
  rw [getFlag_setFlag, if_neg (List.ne_of_not_mem_cons hg)]

/-- Settles O22: each of the seven is `writeFlag` of its flag and value. -/
theorem singleFlagInstructions : Obligations.SingleFlagInstructions := by
  intro s i f b h
  have hexec : exec i s = .next (writeFlag f b s) := by
    simp only [List.mem_cons, Prod.mk.injEq, List.not_mem_nil, or_false] at h
    obtain ⟨rfl, rfl, rfl⟩ | ⟨rfl, rfl, rfl⟩ | ⟨rfl, rfl, rfl⟩ | ⟨rfl, rfl, rfl⟩ | ⟨rfl, rfl, rfl⟩ |
      ⟨rfl, rfl, rfl⟩ | ⟨rfl, rfl, rfl⟩ := h
    · exact exec_clc s
    · exact exec_sec s
    · exact exec_cli s
    · exact exec_sei s
    · exact exec_cld s
    · exact exec_sed s
    · exact exec_clv s
  exact ⟨setFlag f b s.p, hexec, setFlag_flags f b s.p⟩

end Sys2Proof.Machine
end

/-! # The device registers (46_device_registers.md)

The mirrored addresses between work RAM and save RAM lie in no static range, so that a read or write there is what the
dispatcher answers; the statements about the ports only name that answer. -/

section
namespace Sys2Proof.Machine

/-! ## Reads and writes the dispatcher answers -/

/-- No static range lies between work RAM and save RAM (R74). -/
theorem translateCpu_device {m : Nat} (hlo : 0x800 ≤ m) (hhi : m < 0x6000) : translateCpu m = none := by
  rw [translateCpu_eq, if_neg (by omega), if_neg (by omega), if_neg (by omega), if_pos hhi]

/-- A read of a device register is the dispatcher's (R80). -/
theorem cpuRead_device {a : Addr} {s : State} {m : Nat} {r : Byte × State} (hm : mirrorCpu s.cfg a = m)
    (hlo : 0x800 ≤ m) (hhi : m < 0x6000) (hr : dispatchRead m s = some r) : cpuRead a s = r := by
  simp only [cpuRead, hm, translateCpu_device hlo hhi, hr]

/-- A write of a device register is the dispatcher's (R81). -/
theorem cpuWrite_device {a : Addr} {v : Byte} {s t : State} {m : Nat} (hm : mirrorCpu s.cfg a = m)
    (hlo : 0x800 ≤ m) (hhi : m < 0x6000) (ht : dispatchWrite m v s = some t) : cpuWrite a v s = t := by
  simp only [cpuWrite, hm, if_neg (show ¬ 0x8000 ≤ m by omega), translateCpu_device hlo hhi, ht]

/-! ## The OAM ports (R366 to R368) -/

/-- The next byte, counted as a number that wraps at 0x100. -/
theorem byte_add_one_eq_ofNat (b : Byte) : b + 1 = BitVec.ofNat 8 (b.toNat + 1) := by
  rw [BitVec.ofNat_add, BitVec.ofNat_toNat, BitVec.setWidth_eq]
  rfl

/-- OAM data is stored at the cursor, which moves on by one modulo 0x100 (R367). -/
theorem Ppu.writeOamData_eq (u : Ppu) (v : Byte) :
    u.writeOamData v =
      { u with oam := u.oam.write u.oamAddr.toNat v, oamAddr := BitVec.ofNat 8 (u.oamAddr.toNat + 1) } := by
  rw [writeOamData, byte_add_one_eq_ofNat]

/-- Settles O43: each port is one device register; the cursor's 8-bit addition is `Ppu.writeOamData_eq`. -/
theorem oamPorts : Obligations.OamPorts := by
  intro s a v
  refine ⟨fun hm => cpuWrite_device hm (by decide) (by decide) rfl, fun hm => ⟨?_, ?_⟩⟩
  · have hw : cpuWrite a v s = s.setPpu (s.ppu.writeOamData v) := cpuWrite_device hm (by decide) (by decide) rfl
    rw [hw, Ppu.writeOamData_eq]
    rfl
  · exact cpuRead_device hm (by decide) (by decide) rfl

end Sys2Proof.Machine
end

/-! # The opcode map, decoder and encoder (30_encoding.md R131 to R150)

A row of the map is read in two directions: the decoder finds it by its opcode byte and builds an instruction from the
operand bytes, the encoder reads it off the instruction. `OpRow.Sound` says of one row that the two agree; every row of
the map is sound, and every instruction has its row. -/

section
namespace Sys2Proof

/-! ## What a row says -/

/-- What a row builds from two bytes is of the row's mnemonic and format, and is encoded by the row's opcode byte and as
many of the two bytes as the format has. -/
structure OpRow.Sound (r : OpRow) : Prop where
  mnemonic (b1 b2 : Byte) : (r.build b1 b2).mnemonic = r.mnemonic
  format (b1 b2 : Byte) : (r.build b1 b2).mode.format = r.format
  encode (b1 b2 : Byte) : encode (r.build b1 b2) = r.opcode :: [b1, b2].take (r.format.length - 1)

/-- Every row of R137 is sound. -/
theorem opTable_sound : ∀ r ∈ opTable, OpRow.Sound r := by
  simp only [opTable, opRowsA, opRowsB, opRowsC, opRowsD, opRowsE, opRowsI, opRowsJ, opRowsL, opRowsN, opRowsO, opRowsP,
    opRowsR, opRowsS, opRowsT, List.forall_mem_append, List.forall_mem_cons, List.not_mem_nil, false_imp_iff,
    implies_true, and_true]
  and_intros
  all_goals exact ⟨fun _ _ => rfl, fun _ _ => rfl, fun _ _ => by
    simp [encode, Instr.opcode, Instr.mode, Instr.shape, Mode.bytes, Format.length]⟩

/-- The row the decoder finds stands in the map under the byte it was found by. -/
theorem lookupOpcode_some {op : Byte} {r : OpRow} (h : lookupOpcode op = some r) : OpRow.Sound r ∧ r.opcode = op :=
  ⟨opTable_sound r (List.mem_of_find?_eq_some h), by simpa using List.find?_some h⟩

/-- Every instruction is what its opcode byte's row builds from its operand bytes. -/
theorem lookupOpcode_opcode (i : Instr) :
    ∃ r, lookupOpcode i.opcode = some r ∧ r.build (i.mode.bytes.getD 0 0) (i.mode.bytes.getD 1 0) = i := by
  cases i <;> exact ⟨_, rfl, by simp [Instr.mode, Instr.shape, Mode.bytes]⟩

/-- A mode has the operand bytes its format has. -/
theorem Mode.length_bytes (m : Mode) : m.bytes.length + 1 = m.format.length := by
  cases m <;> rfl

theorem Format.length_le (f : Format) : f.length ≤ 3 := by cases f <;> decide

/-- At most two operand bytes are listed by their first two entries. -/
theorem take_operands {bs : List Byte} {n : Nat} (h : bs.length + 1 = n) (hn : n ≤ 3) :
    [bs.getD 0 0, bs.getD 1 0].take (n - 1) = bs := by
  subst h
  match bs with
  | [] => rfl
  | [_] => rfl
  | [_, _] => rfl
  | _ :: _ :: _ :: _ => simp at hn; omega

/-! ## The decoder -/

/-- Bytes decode exactly when they are an opcode byte with a row, the operand bytes of its format, and some rest; they
decode to what the row builds. -/
theorem decode_ok_iff {bytes : List Byte} {i : Instr} :
    decode bytes = .ok i ↔ ∃ op r bs rest, bytes = op :: (bs ++ rest) ∧ lookupOpcode op = some r ∧
      bs.length + 1 = r.format.length ∧ r.build (bs.getD 0 0) (bs.getD 1 0) = i := by
  constructor
  · intro h
    unfold decode at h
    split at h
    · cases h
    next op tail =>
    split at h
    · cases h
    next r hr =>
    split at h <;> cases h
    next hl => exact ⟨op, r, [], _, rfl, hr, hl.symm, rfl⟩
    next b1 rest hl => exact ⟨op, r, [b1], rest, rfl, hr, hl.symm, rfl⟩
    next b1 b2 rest hl => exact ⟨op, r, [b1, b2], rest, rfl, hr, hl.symm, rfl⟩
  · rintro ⟨op, r, bs, rest, rfl, hr, hl, rfl⟩
    rw [← take_operands hl r.format.length_le]
    obtain hf | hf | hf : r.format.length = 1 ∨ r.format.length = 2 ∨ r.format.length = 3 := by
      have := r.format.length_le
      omega
    all_goals simp [decode, hr, hf]

/-! ## The statements -/

/-- Settles O1: the row of the opcode byte builds the instruction back from its operand bytes. -/
theorem decodeOfEncode : Obligations.DecodeOfEncode := by
  intro i rest
  obtain ⟨r, hr, hi⟩ := lookupOpcode_opcode i
  have hformat := (lookupOpcode_some hr).1.format
  refine ⟨?_, decode_ok_iff.2 ⟨i.opcode, r, i.mode.bytes, rest, rfl, hr, ?_, hi⟩⟩
  · cases i <;> rfl
  · rw [Mode.length_bytes, ← hformat (i.mode.bytes.getD 0 0) (i.mode.bytes.getD 1 0), hi]

/-- Settles O2: a sound row encodes what it builds by the bytes it was built from. -/
theorem encodeOfDecode : Obligations.EncodeOfDecode := by
  intro bytes i h
  obtain ⟨op, r, bs, rest, rfl, hr, hl, rfl⟩ := decode_ok_iff.1 h
  obtain ⟨hsound, rfl⟩ := lookupOpcode_some hr
  refine ⟨rest, ?_⟩
  rw [hsound.encode, take_operands hl r.format.length_le]
  rfl

/-- Two instructions with one encoding are one instruction. -/
theorem encode_injective {i j : Instr} (h : encode i = encode j) : i = j := by
  have hi := (decodeOfEncode i []).2
  rw [h, (decodeOfEncode j []).2] at hi
  exact (Except.ok.inj hi).symm

/-- What a sound row builds depends only on the bytes its format has. -/
theorem OpRow.Sound.build_congr {r : OpRow} (h : r.Sound) {b1 b2 c1 c2 : Byte}
    (hb : [b1, b2].take (r.format.length - 1) = [c1, c2].take (r.format.length - 1)) :
    r.build b1 b2 = r.build c1 c2 :=
  encode_injective (by rw [h.encode, h.encode, hb])

/-! ## How long a row is -/

theorem OpRow.length_le (r : OpRow) {n : Nat} (hn : n ≤ 3) : r.length n ≤ 3 := by
  unfold OpRow.length
  split
  · exact hn
  · exact r.format.length_le

/-- The row of BRK has no operand byte. -/
theorem OpRow.Sound.format_of_brk {r : OpRow} (h : r.Sound) (hb : r.mnemonic = .BRK) : r.format = .imp := by
  have hm := (h.mnemonic 0 0).trans hb
  rw [← h.format 0 0]
  generalize r.build 0 0 = i at hm
  cases i
  case brk => rfl
  all_goals exact nomatch hm

/-- A row builds from the bytes its format has, BRK from its opcode byte alone, whatever BRK_LENGTH is. -/
theorem OpRow.Sound.build_of_length {r : OpRow} (h : r.Sound) (n : Nat) (b1 b2 : Byte) :
    (r.length n < 2 → r.build 0 0 = r.build b1 b2) ∧ (r.length n ≠ 3 → r.build b1 0 = r.build b1 b2) := by
  have hf := r.format.length_le
  unfold OpRow.length
  split
  next hb =>
    have hone : ∀ c1 c2, r.build c1 c2 = r.build b1 b2 := fun c1 c2 => h.build_congr (by rw [h.format_of_brk hb]; rfl)
    exact ⟨fun _ => hone _ _, fun _ => hone _ _⟩
  next hb =>
    constructor <;> intro hl <;> refine h.build_congr ?_
    · rw [show r.format.length - 1 = 0 by omega]; rfl
    · obtain hf | hf : r.format.length - 1 = 0 ∨ r.format.length - 1 = 1 := by omega
      all_goals rw [hf]; rfl

/-- Settles O3: finite facts about the map and the table of R150, evaluated. -/
theorem opcodeMapAndWords : Obligations.OpcodeMapAndWords := by
  refine ⟨rfl, by decide +kernel, by decide +kernel, by decide +kernel, rfl, rfl, rfl, rfl, rfl, ?_⟩
  intro base plus branches
  exact ⟨by decide +kernel, by decide +kernel⟩

end Sys2Proof
end

/-! # The fetch and the step (30_encoding.md R132, R133, 60_exceptions.md R516)

What the fetch answers, for each of its two outcomes; where the register mirror ends below program storage its reads are
of stored bytes, and it is said directly which bytes it takes. -/

section
namespace Sys2Proof.Machine

/-! ## What the fetch answers in every state -/

theorem not_inFetchWindow (a : Addr) : ((!inFetchWindow a) = true) ↔ a.toNat < 0x8000 := by
  simp [inFetchWindow]

/-- A fetch that succeeds fetched at or above 0x8000 the opcode byte of the row it built from. -/
theorem fetch_ok {s : State} {f : Fetched} (h : fetch s = .ok f) :
    0x8000 ≤ s.pc.toNat ∧ ∃ r b1 b2, lookupOpcode (cpuRead s.pc s).1 = some r ∧ f.instr = r.build b1 b2 := by
  simp only [fetch, not_inFetchWindow] at h
  split at h
  · cases h
  next hpc =>
  refine ⟨by omega, ?_⟩
  split at h
  · cases h
  next r hr =>
  split at h
  · cases h; exact ⟨r, _, _, hr, rfl⟩
  split at h
  · cases h
  split at h
  · cases h; exact ⟨r, _, _, hr, rfl⟩
  split at h <;> cases h
  exact ⟨r, _, _, hr, rfl⟩

/-- A fetch that is refused is so for one of its three bytes below 0x8000, or for an opcode byte with no row. -/
theorem fetch_error {s : State} {r : Refusal} (h : fetch s = .error r) :
    (r = .fetchOutsideProgramStorage ∧ ∃ k : Nat, k < 3 ∧ (s.pc + BitVec.ofNat 16 k).toNat < 0x8000) ∨
    (r = .undocumentedOpcode (cpuRead s.pc s).1 s.pc ∧ 0x8000 ≤ s.pc.toNat ∧
      lookupOpcode (cpuRead s.pc s).1 = none) := by
  simp only [fetch, not_inFetchWindow] at h
  split at h
  next hpc => cases h; exact .inl ⟨rfl, 0, by omega, by simpa using hpc⟩
  next hpc =>
  split at h
  next hr => cases h; exact .inr ⟨rfl, by omega, hr⟩
  split at h
  · cases h
  split at h
  next hpc1 => cases h; exact .inl ⟨rfl, 1, by omega, hpc1⟩
  split at h
  · cases h
  split at h <;> cases h
  next hpc2 => exact .inl ⟨rfl, 2, by omega, hpc2⟩

/-! ## The fetch of stored bytes -/

theorem fetch_low {s : State} (h : s.pc.toNat < 0x8000) : fetch s = .error .fetchOutsideProgramStorage :=
  if_pos ((not_inFetchWindow _).2 h)

theorem fetch_undocumented {s : State} (hmir : s.cfg.regMirrorHi ≤ 0x8000) (hpc : 0x8000 ≤ s.pc.toNat)
    (hr : lookupOpcode (peek s s.pc) = none) : fetch s = .error (.undocumentedOpcode (peek s s.pc) s.pc) := by
  simp only [fetch, not_inFetchWindow, if_neg (Nat.not_lt.2 hpc), cpuRead_programStorage s.pc s hmir hpc, hr]

/-- An operand byte of an opcode in program storage lies outside it when the address passes the top. -/
theorem toNat_add_ofNat_lt {pc : Addr} {k : Nat} (hpc : 0x8000 ≤ pc.toNat) (hk : k < 3) :
    (pc + BitVec.ofNat 16 k).toNat < 0x8000 ↔ 0x10000 ≤ pc.toNat + k := by
  have := pc.isLt
  rw [BitVec.toNat_add, BitVec.toNat_ofNat]
  omega

/-- The fetch of an opcode byte with a row: the whole instruction lies in program storage, or the fetch is refused. -/
theorem fetch_row {s : State} {r : OpRow} (hmir : s.cfg.regMirrorHi ≤ 0x8000) (hpc : 0x8000 ≤ s.pc.toNat)
    (hr : lookupOpcode (peek s s.pc) = some r) (hlen : s.pc.toNat + r.length s.cfg.brkLength ≤ 0x10000) :
    fetch s = .ok ⟨r.build (peek s (s.pc + 1)) (peek s (s.pc + 2)), r.length s.cfg.brkLength, s⟩ := by
  obtain ⟨hnone, hone⟩ :=
    (lookupOpcode_some hr).1.build_of_length s.cfg.brkLength (peek s (s.pc + 1)) (peek s (s.pc + 2))
  have h1 : (s.pc + 1).toNat < 0x8000 ↔ _ := toNat_add_ofNat_lt hpc (k := 1) (by omega)
  have h2 : (s.pc + 2).toNat < 0x8000 ↔ _ := toNat_add_ofNat_lt hpc (k := 2) (by omega)
  simp only [fetch, not_inFetchWindow, if_neg (Nat.not_lt.2 hpc), cpuRead_programStorage s.pc s hmir hpc, hr]
  split
  next hl => rw [hnone hl]
  rw [if_neg (by omega), cpuRead_programStorage (s.pc + 1) s hmir (by omega)]
  split
  next hl => rw [hone hl]
  rw [if_neg (by omega), cpuRead_programStorage (s.pc + 2) s hmir (by omega)]

theorem fetch_row_outside {s : State} {r : OpRow} (hmir : s.cfg.regMirrorHi ≤ 0x8000) (hpc : 0x8000 ≤ s.pc.toNat)
    (hr : lookupOpcode (peek s s.pc) = some r) (hbrk : s.cfg.brkLength ≤ 3)
    (hlen : 0x10000 < s.pc.toNat + r.length s.cfg.brkLength) : fetch s = .error .fetchOutsideProgramStorage := by
  have := r.length_le hbrk
  have h1 : (s.pc + 1).toNat < 0x8000 ↔ _ := toNat_add_ofNat_lt hpc (k := 1) (by omega)
  have h2 : (s.pc + 2).toNat < 0x8000 ↔ _ := toNat_add_ofNat_lt hpc (k := 2) (by omega)
  have := s.pc.isLt
  simp only [fetch, not_inFetchWindow, if_neg (Nat.not_lt.2 hpc), cpuRead_programStorage s.pc s hmir hpc, hr]
  rw [if_neg (by omega)]
  split
  · rfl
  next hpc1 => rw [if_neg (by omega), if_pos (by omega)]

end Sys2Proof.Machine
end

/-! # What a step does, and where it stops (30_encoding.md R133, R150, 60_exceptions.md R503) -/

section
namespace Sys2Proof.Machine

/-! ## Which instructions complete -/

/-- Settles O7: only the arm of RTI has a branch that answers no next state. -/
theorem everyInstructionCompletes : Obligations.EveryInstructionCompletes := by
  intro i s
  cases i
  case rti =>
    rw [exec_rti]
    exact ⟨fun h => ⟨_, if_neg (h.resolve_left (by simp [Instr.mnemonic, Instr.shape]))⟩, fun _ h => if_pos h⟩
  all_goals exact ⟨fun _ => ⟨_, rfl⟩, fun h => nomatch h⟩

/-- An instruction that answers no next state is RTI in context Normal, and its answer is the fault. -/
theorem exec_ne_next {i : Instr} {s : State} (h : ∀ t, exec i s ≠ .next t) :
    i = .rti ∧ s.ctx = .normal ∧ exec i s = .fault .returnOutsideHandler := by
  obtain ⟨hnext, hfault⟩ := everyInstructionCompletes i s
  obtain ⟨hm, hctx⟩ : i.mnemonic = .RTI ∧ s.ctx = .normal := by
    by_contra hc
    obtain ⟨t, ht⟩ := hnext (by tauto)
    exact h t ht
  refine ⟨?_, hctx, hfault hm hctx⟩
  cases i
  case rti => rfl
  all_goals exact nomatch hm

/-! ## The step -/

/-- A step of a machine that is not paused is the fetch, the instruction and its checkpoint. -/
theorem step_of_fetch {s : State} (hp : s.controls.paused = false) :
    (∀ r, fetch s = .error r → step s = .refused r) ∧
    (∀ f, fetch s = .ok f → step s = executeAndSync f.instr (advancePc f.len f.state)) := by
  constructor <;> intro _ h <;> simp [step, hp, runFetched, h]

/-- A step that faults is an instruction that faulted; a step that is refused is a fetch that was. -/
theorem step_stop_cases (s : State) :
    (∀ e, step s = .fault e → ∃ f, fetch s = .ok f ∧ exec f.instr (advancePc f.len f.state) = .fault e) ∧
    (∀ r, step s = .refused r → fetch s = .error r) := by
  cases hp : s.controls.paused
  · obtain ⟨herror, hok⟩ := step_of_fetch hp
    cases hf : fetch s with
    | error r => simp [herror r hf]
    | ok f =>
      rw [hok f hf, executeAndSync]
      cases hx : exec f.instr (advancePc f.len f.state) with
      | next t => exact ⟨fun _ h => (nomatch h), fun _ h => (nomatch h)⟩
      | fault e => exact ⟨fun _ h => ⟨f, rfl, hx.trans h⟩, fun _ h => (nomatch h)⟩
      | refused r =>
        obtain ⟨-, -, h⟩ := exec_ne_next (i := f.instr) (s := advancePc f.len f.state) (by simp [hx])
        rw [hx] at h
        cases h
  · simp [step, hp]

/-- Settles O6: the fault is RTI's, whose opcode byte is that of the row it was fetched by; the refusals are the
fetch's. -/
theorem stepStopsOnlyAsListed : Obligations.StepStopsOnlyAsListed := by
  intro s
  obtain ⟨hfault, hrefused⟩ := step_stop_cases s
  refine ⟨fun e h => ?_, fun r h => fetch_error (hrefused r h)⟩
  obtain ⟨f, hf, hx⟩ := hfault e h
  obtain ⟨hi, hctx, he⟩ := exec_ne_next (i := f.instr) (s := advancePc f.len f.state) (by simp [hx])
  obtain ⟨hpc, r, b1, b2, hr, hb⟩ := fetch_ok hf
  obtain ⟨hsound, hop⟩ := lookupOpcode_some hr
  have hcode := hsound.encode b1 b2
  rw [← hb, hi, hop] at hcode
  rw [hx] at he
  have hkeep : f.state.ctx = s.ctx := fetch_induct (·.ctx = s.ctx) (fun a t ht => by simpa using ht) rfl hf
  exact ⟨Host.Outcome.fault.inj he, hkeep ▸ hctx, hpc, (List.cons.inj hcode).1.symm⟩

/-- Settles O5: each refusal of the fetch is the step's. -/
theorem fetchRefusals : Obligations.FetchRefusals := by
  intro s hp hmir hbrk
  have herror := (step_of_fetch hp).1
  exact ⟨fun h => herror _ (fetch_low h), fun hpc hr => herror _ (fetch_undocumented hmir hpc hr),
    fun hpc r hr hlen => herror _ (fetch_row_outside hmir hpc hr hbrk hlen)⟩

/-- Settles O60: the fetch, the instruction and the checkpoint each keep the invariant, and so does a held pause. -/
theorem stepKeepsInvariant : Obligations.StepKeepsInvariant := by
  intro s t hs h
  obtain ⟨-, rfl⟩ | ⟨f, u, -, hf, hu, rfl⟩ := step_next_cases h
  · exact inv_restart s hs
  · exact inv_sync _ _ (inv_exec _ _ _ (inv_setPc _ _ (inv_fetch s f hs hf)) hu)

/-! ## The count handed to the checkpoint -/

/-- The target of a branch as a sum of integers, modulo 65536. -/
theorem branchTarget_eq (d : Byte) (s : State) : branchTarget d s = BitVec.ofInt 16 (s.pc.toNat + d.toInt) := by
  rw [branchTarget, BitVec.ofInt_add, BitVec.ofInt_natCast, BitVec.ofNat_toNat, BitVec.setWidth_eq]
  rfl

/-- Two bytes differ exactly when their numbers do. -/
theorem bne_eq_decide_toNat_ne (a b : Byte) : (a != b) = decide (a.toNat ≠ b.toNat) := by
  rw [bne_eq_decide_ne]
  exact decide_eq_decide.2 BitVec.toNat_inj.symm.not

/-- The target of a branch lies on another page when the high bytes, as quotients, differ. -/
theorem targetOffPage_rel (d : Byte) (s : State) :
    targetOffPage (.rel d) s =
      decide ((BitVec.ofInt 16 (s.pc.toNat + d.toInt)).toNat / 256 ≠ s.pc.toNat / 256) := by
  simp only [targetOffPage, bne_eq_decide_toNat_ne, highByte_toNat, branchTarget_eq]

/-- Only a branch is taken. -/
theorem branchTaken_eq (i : Instr) (s : State) :
    branchTaken i.mnemonic s =
      match i with
      | .bcc _ => !s.flag .C
      | .bcs _ => s.flag .C
      | .bne _ => !s.flag .Z
      | .beq _ => s.flag .Z
      | .bpl _ => !s.flag .N
      | .bmi _ => s.flag .N
      | .bvc _ => !s.flag .V
      | .bvs _ => s.flag .V
      | _ => false := by
  cases i <;> rfl

/-- The page flag, mode by mode (R150, R174). -/
theorem pageFlag_eq (i : Instr) (s : State) :
    pageFlag i s =
      match i.mode with
      | .abx w => decide (256 ≤ w.toNat % 256 + s.x.toNat)
      | .aby w => decide (256 ≤ w.toNat % 256 + s.y.toNat)
      | .izy z => decide (256 ≤ (s.zp.read z.toNat).toNat + s.y.toNat)
      | .rel d => branchTaken i.mnemonic s &&
          decide ((BitVec.ofInt 16 (s.pc.toNat + d.toInt)).toNat / 256 ≠ s.pc.toNat / 256)
      | _ => false := by
  unfold pageFlag
  cases i.mode with
  | rel d => simp only [pageCrossed, targetOffPage_rel, Bool.false_or]
  | _ => simp [pageCrossed, targetOffPage, indexCarries, lowByte_toNat, peek_zeroPage]

/-- The entry of CYCLES two flags select. -/
theorem cycleCount_eq (c : Config) (op : Byte) (page taken : Bool) :
    cycleCount c op page taken =
      let e := c.cycles.getD op.toNat ⟨0, 0, 0, 0⟩
      if taken then (if page then e.takenCrossed else e.taken) else if page then e.crossed else e.plain := by
  cases page <;> cases taken <;> rfl

/-- Bytes that decode to `i` begin with the byte of a row of `i`'s length that builds `i` from the next two. -/
theorem lookupOpcode_of_decode {op b1 b2 : Byte} {i : Instr} (h : decode [op, b1, b2] = .ok i) :
    i.opcode = op ∧ ∃ r, lookupOpcode op = some r ∧ r.build b1 b2 = i ∧ ∀ n, r.length n = i.length n := by
  obtain ⟨op', r, bs, rest, hbytes, hr, hl, rfl⟩ := decode_ok_iff.1 h
  obtain ⟨rfl, hrest⟩ := List.cons.inj hbytes
  obtain ⟨hsound, rfl⟩ := lookupOpcode_some hr
  refine ⟨(List.cons.inj (hsound.encode _ _)).1, r, hr, hsound.build_congr ?_, fun n => ?_⟩
  · rw [take_operands hl r.format.length_le, hrest, ← hl]
    exact List.take_left
  · rw [OpRow.length, Instr.length, hsound.mnemonic, hsound.format]

/-- Settles O4: the fetch takes the row of the decoded instruction, and its two flags are the model's. -/
theorem stepRunsDecodedInstruction : Obligations.StepRunsDecodedInstruction := by
  intro s i hp hmir hpc hlen hdec t taken page e n
  obtain ⟨hop, r, hr, hbuild, hrlen⟩ := lookupOpcode_of_decode hdec
  have hfetch := fetch_row hmir hpc hr (by rwa [hrlen])
  rw [hbuild, hrlen] at hfetch
  have htaken : branchTaken i.mnemonic t = taken := branchTaken_eq i t
  have hpage : pageFlag i t = page := by rw [pageFlag_eq, htaken]; rfl
  have hcycles : cyclesOf i t = n := by
    rw [cyclesOf, cycleCount_eq, htaken, hpage, hop]
    rfl
  rw [(step_of_fetch hp).2 _ hfetch, ← hcycles]
  rfl

end Sys2Proof.Machine
end

/-! # What an instruction can do (10_state.md R21 to R36, 45_control_system.md R343)

An instruction that is no control transfer is its mnemonic's operation on its resolved operand form, as layer 1 has it;
so what an instruction does is said mnemonic by mnemonic. `Accesses` lists what its memory accesses can leave, and
everything else an instruction does is to the registers. -/

section
namespace Sys2Proof.Machine

/-! ## Layer 1 and layer 2 -/

/-- Settles O58: each arm of `exec` is the operation of its mnemonic on its form. -/
theorem layersAgree : Obligations.LayersAgree := by
  intro i s h
  cases i
  case jmpAbs | jmpInd | jsr | rts | rti | bcc | bcs | beq | bne | bmi | bpl | bvc | bvs => exact nomatch h
  all_goals exact ⟨rfl, _, rfl, rfl⟩

/-- An instruction that is no control transfer answers what its operation answers. -/
theorem exec_eq_runOperation {i : Instr} (h : i.mnemonic.isControlTransfer = false) (s : State) :
    ∃ t, runOperation i.mnemonic (formOf i s) s = some t ∧ exec i s = .next t := by
  obtain ⟨hwf, t, ht, hx⟩ := layersAgree i s h
  exact ⟨t, by rwa [runRequest, if_pos hwf] at ht, hx⟩

/-! ## The resolved form -/

theorem address_formOf (i : Instr) (s : State) : Form.address (formOf i s) = modeAddress i.mode s := by
  unfold formOf
  cases i.mode <;> rfl

/-- A source that is a memory cell is the one at the effective address. -/
theorem source_formOf {i : Instr} {s : State} {ea : Addr} (h : Form.source (formOf i s) = some (.mem ea)) :
    modeAddress i.mode s = some ea := by
  rw [← address_formOf]
  cases hf : formOf i s <;> rw [hf] at h <;> cases h
  rfl

/-- The place of a shift is A in the accumulator form, else the cell at the effective address. -/
theorem place_formOf {i : Instr} {s : State} {l : Place} (h : Form.place (formOf i s) = some l) :
    (l = .acc ∧ i.mode = .acc) ∨ ∃ ea, l = .mem ea ∧ modeAddress i.mode s = some ea := by
  unfold formOf at h
  cases hm : i.mode <;> rw [hm] at h <;> cases h
  case acc => exact .inl ⟨rfl, rfl⟩
  all_goals exact .inr ⟨_, rfl, rfl⟩

/-! ## The accesses of an instruction -/

/-- `s` after at most one byte read. -/
def AfterRead (s u : State) : Prop := u = s ∨ ∃ a, u = (cpuRead a s).2

/-- `u` is what the memory accesses of `i` leave of `s`: nothing; one or two reads, for an operand or a pointer in memory;
a write at the effective address, with or without a read; a byte pushed, or two by JSR. -/
inductive Accesses (i : Instr) (s : State) : State → Prop where
  | nothing (hstore : storeAddress i s = none) (hpush : pushes i.mnemonic = false) : Accesses i s s
  | read {u : State} (hu : AfterRead s u) (a : Addr) (hstore : storeAddress i s = none)
      (hpush : pushes i.mnemonic = false) (hop : accessesNoOperand i = false) : Accesses i s (cpuRead a u).2
  | write {u : State} {ea : Addr} (hu : AfterRead s u) (v : Byte) (hstore : storeAddress i s = some ea)
      (hpush : pushes i.mnemonic = false) (hop : accessesNoOperand i = false) : Accesses i s (cpuWrite ea v u)
  | push (v : Byte) (hstore : storeAddress i s = none) (hpush : pushes i.mnemonic = true) :
      Accesses i s { s with stk := s.stk.write s.sp.toNat v }
  | pushTwo (v w : Byte) (hstore : storeAddress i s = none) (hpush : i.mnemonic = .JSR) :
      Accesses i s { s with stk := (s.stk.write s.sp.toNat v).write (s.sp - 1).toNat w }

/-- `t` is `u` but for the registers and the part of the interrupt state that instructions write. -/
def OnlyRegisters (u t : State) : Prop :=
  t = { u with
    a := t.a, x := t.x, y := t.y, sp := t.sp, p := t.p, pc := t.pc, ctx := t.ctx, irqPending := t.irqPending }

/-- Each register of `t` is that of `s`, unless `i` is listed for it. -/
structure RegistersKept (i : Instr) (s t : State) : Prop where
  a : writesA i = false → t.a = s.a
  x : writesX i.mnemonic = false → t.x = s.x
  y : writesY i.mnemonic = false → t.y = s.y
  sp : writesSp i.mnemonic = false → t.sp = s.sp
  pc : writesPc i.mnemonic = false → t.pc = s.pc
  ctx : i.mnemonic ≠ .RTI → t.ctx = s.ctx
  irq : i.mnemonic ≠ .BRK → t.irqPending = s.irqPending

/-- What an instruction does: its accesses, then registers it is listed for. -/
def Effect (i : Instr) (s t : State) : Prop := ∃ u, Accesses i s u ∧ OnlyRegisters u t ∧ RegistersKept i s t

/-- An instruction with an effective address, but for JMP and JSR, accesses an operand in memory. -/
theorem accessesNoOperand_of_address {i : Instr} {s : State} {ea : Addr} (h : modeAddress i.mode s = some ea)
    (hj : i.mnemonic.isControlTransfer = false) : accessesNoOperand i = false := by
  unfold accessesNoOperand
  cases hm : i.mode <;> rw [hm] at h
  case imp | acc | imm | rel => cases h
  case abs w =>
    have hjmp : i.mnemonic ≠ .JMP := fun hn => by rw [hn] at hj; cases hj
    have hjsr : i.mnemonic ≠ .JSR := fun hn => by rw [hn] at hj; cases hj
    simp [hjmp, hjsr]

/-- Evaluating an operand is nothing, or a read. -/
theorem accesses_readSource {i : Instr} {s : State} {o : Source} (ho : Form.source (formOf i s) = some o)
    (hj : i.mnemonic.isControlTransfer = false) (hstore : storesToOperand i.mnemonic = false)
    (hpush : pushes i.mnemonic = false) : Accesses i s (readSource o s).2 := by
  have hs : storeAddress i s = none := by simp [storeAddress, hstore]
  cases o with
  | imm v => exact .nothing hs hpush
  | mem ea => exact .read (.inl rfl) ea hs hpush (accessesNoOperand_of_address (source_formOf ho) hj)

/-- An operation on registers alone. -/
theorem effect_registers {i : Instr} {s t : State} (hstore : storeAddress i s = none)
    (hpush : pushes i.mnemonic = false) (ht : OnlyRegisters s t) (hr : RegistersKept i s t) : Effect i s t :=
  ⟨s, .nothing hstore hpush, ht, hr⟩

theorem storeAddress_none {i : Instr} (h : storesToOperand i.mnemonic = false) (s : State) :
    storeAddress i s = none := by
  simp [storeAddress, h]

theorem storeAddress_some {i : Instr} {s : State} {ea : Addr} (h : storesToOperand i.mnemonic = true)
    (hea : modeAddress i.mode s = some ea) : storeAddress i s = some ea := by
  simp [storeAddress, h, hea]

/-- A shift writes A, or reads and writes one address. -/
theorem effect_shiftOp {i : Instr} {s : State} {l : Place} (f : Byte → Bool → Shifted)
    (hl : Form.place (formOf i s) = some l) (hm : i.mnemonic = .ASL ∨ i.mnemonic = .LSR ∨ i.mnemonic = .ROL ∨
      i.mnemonic = .ROR) : Effect i s (shiftOp f l s) := by
  have hpush : pushes i.mnemonic = false := by rcases hm with h | h | h | h <;> rw [h] <;> rfl
  have hj : i.mnemonic.isControlTransfer = false := by rcases hm with h | h | h | h <;> rw [h] <;> rfl
  have hstores : storesToOperand i.mnemonic = true := by rcases hm with h | h | h | h <;> rw [h] <;> rfl
  obtain ⟨rfl, hacc⟩ | ⟨ea, rfl, hea⟩ := place_formOf hl
  · have hA : writesA i = true := by rcases hm with h | h | h | h <;> simp [writesA, h, hacc]
    have hnone : storeAddress i s = none := by simp [storeAddress, hacc, modeAddress]
    refine ⟨s, .nothing hnone hpush, rfl, ?_⟩
    constructor <;> simp [hA, shiftOp, readPlace, writePlace]
  · refine ⟨_, .write (.inr ⟨ea, rfl⟩) _ (storeAddress_some hstores hea) hpush (accessesNoOperand_of_address hea hj),
      rfl, ?_⟩
    constructor <;> simp [shiftOp, readPlace]

/-- A branch writes PC or nothing. -/
theorem effect_branch {i : Instr} {s : State} (hstore : storeAddress i s = none) (hpush : pushes i.mnemonic = false)
    (hpc : writesPc i.mnemonic = true) (taken : Bool) (d : Byte) : Effect i s (branch taken d s) := by
  unfold branch
  split <;> refine effect_registers hstore hpush rfl ?_ <;> constructor <;> simp [hpc]

/-- What the operation of a mnemonic does, by what kind of operation it is. -/
theorem effect_of_runOperation {i : Instr} {s t : State} (h : runOperation i.mnemonic (formOf i s) s = some t)
    (hj : i.mnemonic.isControlTransfer = false) : Effect i s t := by
  cases hm : i.mnemonic <;> rw [hm] at h
  case JMP | JSR | RTS | RTI | BCC | BCS | BEQ | BNE | BMI | BPL | BVC | BVS => cases h
  case ADC | SBC | CMP | CPX | CPY | AND | ORA | EOR | LDA | LDX | LDY =>
    obtain ⟨o, ho, rfl⟩ := Option.map_eq_some_iff.1 h
    refine ⟨_, accesses_readSource ho hj (by rw [hm]; rfl) (by rw [hm]; rfl), rfl, ?_⟩
    constructor <;> simp [hm, writesA, writesX, writesY, adc, sbc, compareA, compareX, compareY, andOp, oraOp, eorOp,
      lda, ldx, ldy]
  case BIT =>
    obtain ⟨ea, hea, rfl⟩ := Option.map_eq_some_iff.1 h
    refine ⟨_, .read (.inl rfl) ea (storeAddress_none (by rw [hm]; rfl) s) (by rw [hm]; rfl)
      (accessesNoOperand_of_address ((address_formOf i s).symm.trans hea) hj), rfl, ?_⟩
    constructor <;> simp [bitTest]
  case STA | STX | STY =>
    obtain ⟨ea, hea, rfl⟩ := Option.map_eq_some_iff.1 h
    have hea := (address_formOf i s).symm.trans hea
    refine ⟨_, .write (.inl rfl) _ (storeAddress_some (by rw [hm]; rfl) hea) (by rw [hm]; rfl)
      (accessesNoOperand_of_address hea hj), rfl, ?_⟩
    constructor <;> simp [storeA, storeX, storeY]
  case INC | DEC =>
    obtain ⟨ea, hea, rfl⟩ := Option.map_eq_some_iff.1 h
    have hea := (address_formOf i s).symm.trans hea
    refine ⟨_, .write (.inr ⟨ea, rfl⟩) _ (storeAddress_some (by rw [hm]; rfl) hea) (by rw [hm]; rfl)
      (accessesNoOperand_of_address hea hj), rfl, ?_⟩
    constructor <;> simp [inc, dec]
  case ASL | LSR | ROL | ROR =>
    obtain ⟨l, hl, rfl⟩ := Option.map_eq_some_iff.1 h
    exact effect_shiftOp _ hl (by simp [hm])
  case PHA | PHP =>
    cases h
    rw [push_eq]
    refine ⟨_, .push _ (storeAddress_none (by rw [hm]; rfl) s) (by rw [hm]; rfl), rfl, ?_⟩
    constructor <;> simp [hm, writesSp]
  case BRK =>
    cases h
    unfold breakRequest
    split <;> refine effect_registers (storeAddress_none (by rw [hm]; rfl) s) (by rw [hm]; rfl) rfl ?_ <;>
      constructor <;> simp [hm]
  case PLA | PLP =>
    cases h
    simp only [pullA, pullP, pull_eq]
    refine effect_registers (storeAddress_none (by rw [hm]; rfl) s) (by rw [hm]; rfl) rfl ?_
    constructor <;> simp [hm, writesA, writesSp]
  -- The index steps, the transfers, the single-flag instructions and NOP work on registers alone.
  all_goals
    cases h
    refine effect_registers (storeAddress_none (by rw [hm]; rfl) s) (by rw [hm]; rfl) rfl ?_
    constructor <;> simp [hm, writesA, writesX, writesY, writesSp, incX, incY, decX, decY, copyToA, copyToX, copyToY,
      writeFlag]

/-- What an instruction does. -/
theorem exec_effect {i : Instr} {s t : State} (h : exec i s = .next t) : Effect i s t := by
  cases hj : i.mnemonic.isControlTransfer
  · obtain ⟨u, hu, hx⟩ := exec_eq_runOperation hj s
    cases hx.symm.trans h
    exact effect_of_runOperation hu hj
  cases i
  case bcc | bcs | beq | bne | bmi | bpl | bvc | bvs =>
    cases h
    exact effect_branch rfl rfl rfl _ _
  case jmpAbs =>
    cases h
    refine effect_registers rfl rfl rfl ?_
    constructor <;> simp [writesPc, Instr.mnemonic, Instr.shape]
  case jmpInd w =>
    cases h
    refine ⟨_, .read (.inr ⟨w, rfl⟩) _ rfl rfl rfl, rfl, ?_⟩
    constructor <;> simp [writesPc, Instr.mnemonic, Instr.shape, jumpThrough, jumpIndirect]
  case jsr =>
    cases h
    rw [jumpSubroutine, push_eq, push_eq]
    refine ⟨_, .pushTwo _ _ rfl rfl, rfl, ?_⟩
    constructor <;> simp [writesPc, writesSp, Instr.mnemonic, Instr.shape]
  case rts =>
    cases h
    rw [returnSubroutine, pull_eq, pull_eq]
    refine effect_registers rfl rfl rfl ?_
    constructor <;> simp [writesPc, writesSp, Instr.mnemonic, Instr.shape]
  case rti =>
    rw [exec_rti] at h
    split at h <;> cases h
    rw [returnFromHandler, leaveHandler, pull_eq]
    refine effect_registers rfl rfl rfl ?_
    constructor <;> simp [writesPc, writesSp, Instr.mnemonic, Instr.shape]
  all_goals exact nomatch hj

end Sys2Proof.Machine
end

/-! # Frames: what an instruction and a step leave as they were (10_state.md R21 to R36, R65)

Each frame is read off `exec_effect`: what the accesses of an instruction keep, and that the rest is registers. -/

section
namespace Sys2Proof.Machine

/-! ## What the accesses keep -/

theorem OnlyRegisters.memory {u t : State} (h : OnlyRegisters u t) (b : Backing) : t.memory b = u.memory b := by
  rw [h]; cases b <;> rfl

theorem OnlyRegisters.ppu {u t : State} (h : OnlyRegisters u t) : t.ppu = u.ppu := by rw [h]

theorem OnlyRegisters.peek {u t : State} (h : OnlyRegisters u t) (a : Addr) : peek t a = peek u a :=
  peek_congr u t h.memory (by rw [h]) a

/-- No instruction writes the resume address, the NMI request, program storage or what only the host writes. -/
theorem Accesses.kept {i : Instr} {s u : State} (h : Accesses i s u) :
    u.retPc = s.retPc ∧ u.nmiPending = s.nmiPending ∧ u.prg = s.prg ∧ u.prgPristine = s.prgPristine ∧
      u.controls = s.controls ∧ u.restartRequested = s.restartRequested ∧ u.cfg = s.cfg := by
  cases h with
  | nothing | push | pushTwo => simp
  | read hu | write hu => obtain rfl | ⟨a, rfl⟩ := hu <;> simp

/-- No access moves the PPU's counters, draws, or sets a sprite flag. -/
theorem Accesses.ppu_kept {i : Instr} {s u : State} (h : Accesses i s u) :
    u.ppu.cycle = s.ppu.cycle ∧ u.ppu.scanline = s.ppu.scanline ∧ u.ppu.frameCount = s.ppu.frameCount ∧
      u.ppu.spriteCount = s.ppu.spriteCount ∧ u.ppu.sprite0Hit = s.ppu.sprite0Hit ∧
      u.ppu.overflow = s.ppu.overflow ∧ u.ppu.work = s.ppu.work ∧ u.ppu.out = s.ppu.out := by
  cases h with
  | nothing | push | pushTwo => simp
  | read hu | write hu => obtain rfl | ⟨a, rfl⟩ := hu <;> simp

/-- Without an operand in memory an instruction accesses the stack page alone. -/
theorem Accesses.stack_of_noOperand {i : Instr} {s u : State} (h : Accesses i s u)
    (hop : accessesNoOperand i = true) : ∃ stk, u = { s with stk := stk } := by
  cases h with
  | nothing | push | pushTwo => exact ⟨_, rfl⟩
  | read _ _ _ _ hop' | write _ _ _ _ hop' => rw [hop] at hop'; cases hop'

/-- A byte of the stack page stored through its address. -/
theorem storeCell_stack (s : State) {n : Nat} (hn : n < 0x100) (v : Byte) :
    storeCell s (0x100 + n) v = { s with stk := s.stk.write n v } := by
  have hcell : cellOf (0x100 + n) = (.stk, n) := by
    rw [cellOf_eq, if_neg (by omega), if_pos (by omega), Nat.add_sub_cancel_left]
  simp only [storeCell, hcell]
  rfl

/-- A byte written to the stack page changes no other byte of memory. -/
theorem peek_stack_write (s : State) (hw : s.stk.wf) {n : Nat} (hn : n < 0x100) (v : Byte) {a : Addr}
    (ha : mirrorCpu s.cfg a ≠ 0x100 + n) : peek { s with stk := s.stk.write n v } a = peek s a := by
  have hcell : (cellOf (0x100 + n)).1 = .stk := by rw [cellOf_eq, if_neg (by omega), if_pos (by omega)]
  rw [← storeCell_stack s hn, peek_storeCell _ _ _ _ (by rw [hcell]; exact hw), if_neg ha]

/-! ## The frames of an instruction -/

/-- Settles O29: the registers are `RegistersKept`, the rest no access writes. -/
theorem registerFrame : Obligations.RegisterFrame := by
  intro i s t h
  obtain ⟨u, hacc, ht, hr⟩ := exec_effect h
  refine ⟨hr.a, hr.x, hr.y, hr.sp, hr.pc, hr.ctx, hr.irq, ?_⟩
  rw [ht]
  exact hacc.kept

/-- Settles O31: without a store and a push the accesses are reads. -/
theorem nonStoringMemoryFrame : Obligations.NonStoringMemoryFrame := by
  intro i s t h hstore hpush a
  obtain ⟨u, hacc, ht, -⟩ := exec_effect h
  rw [ht.peek]
  cases hacc with
  | nothing => rfl
  | read hu => obtain rfl | ⟨b, rfl⟩ := hu <;> simp
  | write _ _ hs => cases hstore.symm.trans hs
  | push _ _ hp => cases hpush.symm.trans hp
  | pushTwo _ _ _ hj => rw [hj] at hpush; cases hpush

/-- Settles O32: the one write is at the effective address. -/
theorem storingMemoryFrame : Obligations.StoringMemoryFrame := by
  intro i s t ea hwf h hstore a ha
  obtain ⟨u, hacc, ht, -⟩ := exec_effect h
  rw [ht.peek]
  cases hacc with
  | write hu v hs =>
    cases hs.symm.trans hstore
    obtain rfl | ⟨b, rfl⟩ := hu
    · exact peek_cpuWrite_other _ _ _ _ hwf ha
    · rw [peek_cpuWrite_other _ _ _ _ (by simpa using hwf) (by simpa using ha), peek_cpuRead]
  | nothing hs | read _ _ hs | push _ hs | pushTwo _ _ hs => cases hstore.symm.trans hs

/-- Settles O33: a push writes the stack page at SP, JSR also below it. -/
theorem pushingMemoryFrame : Obligations.PushingMemoryFrame := by
  intro i s t hwf h hpush a ha hj
  obtain ⟨u, hacc, ht, -⟩ := exec_effect h
  rw [ht.peek]
  have hstk : s.stk.wf := hwf .stk
  cases hacc with
  | push v => exact peek_stack_write s hstk s.sp.isLt v ha
  | pushTwo v w _ hm =>
    have hone := peek_stack_write s hstk s.sp.isLt v ha
    have htwo := peek_stack_write { s with stk := s.stk.write s.sp.toNat v } (Memory.wf_write _ hstk _ _)
      (s.sp - 1).isLt w (hj hm)
    exact htwo.trans hone
  | nothing _ hp | read _ _ _ hp | write _ _ _ hp => cases hpush.symm.trans hp

/-- Settles O34: no access moves the PPU, and without an operand in memory the accesses are of the stack page. -/
theorem deviceFrame : Obligations.DeviceFrame := by
  intro i s t h
  obtain ⟨u, hacc, ht, -⟩ := exec_effect h
  refine ⟨by rw [ht.ppu]; exact hacc.ppu_kept, fun hop => ?_⟩
  obtain ⟨stk, rfl⟩ := hacc.stack_of_noOperand hop
  rw [ht]
  simp

/-! ## Flags -/

/-- A flag outside a mnemonic's W column is kept when the flags written are in it. -/
theorem getFlag_of_kept {m : Mnemonic} {f : Flag} {fs : List Flag} {p p' : Byte} (hf : writesFlag f m = false)
    (hk : FlagsKeptExcept fs p p') (hfs : ∀ g ∈ fs, writesFlag g m = true) : getFlag f p' = getFlag f p :=
  hk f fun hmem => by simp [hfs f hmem] at hf

theorem setZN_kept (v p : Byte) : FlagsKeptExcept [.Z, .N] p (setZN v p) := by
  intro f hf
  simp only [List.mem_cons, List.not_mem_nil, or_false, not_or] at hf
  simp [hf]

/-- The flags each operation writes are in the W column of its mnemonic. -/
theorem runOperation_flag {m : Mnemonic} {form : Form} {s t : State} {f : Flag} (h : runOperation m form s = some t)
    (hf : writesFlag f m = false) : getFlag f t.p = getFlag f s.p := by
  cases m
  case JMP | JSR | RTS | RTI | BCC | BCS | BEQ | BNE | BMI | BPL | BVC | BVS => cases h
  case ADC | SBC =>
    obtain ⟨o, -, rfl⟩ := Option.map_eq_some_iff.1 h
    exact getFlag_of_kept hf (arithFlags_flags _ _).2.2.2 (by decide)
  case CMP | CPX | CPY =>
    obtain ⟨o, -, rfl⟩ := Option.map_eq_some_iff.1 h
    exact getFlag_of_kept hf (compareFlags_flags _ _ _).2.2 (by decide)
  case AND | ORA | EOR | LDA | LDX | LDY | INC | DEC =>
    obtain ⟨o, -, rfl⟩ := Option.map_eq_some_iff.1 h
    exact getFlag_of_kept hf (setZN_kept _ _) (by decide)
  case BIT =>
    obtain ⟨o, -, rfl⟩ := Option.map_eq_some_iff.1 h
    exact getFlag_of_kept hf (bitFlags_flags _ _ _).2.2.2 (by decide)
  case ASL | LSR | ROL | ROR =>
    obtain ⟨l, -, rfl⟩ := Option.map_eq_some_iff.1 h
    exact getFlag_of_kept hf (shiftFlags_flags _ _).2.2 (by decide)
  case STA | STX | STY =>
    obtain ⟨ea, -, rfl⟩ := Option.map_eq_some_iff.1 h
    simp
  case INX | INY | DEX | DEY | TAX | TAY | TXA | TYA | TSX | PLA =>
    cases h
    exact getFlag_of_kept hf (setZN_kept _ _) (by decide)
  case PLP => cases f <;> cases hf
  case BRK =>
    cases h
    rw [breakRequest_p]
    split
    · rfl
    · exact getFlag_of_kept hf (setFlag_flags .B true _).2 (by decide)
  case CLC | SEC | CLI | SEI | CLD | SED | CLV =>
    cases h
    exact getFlag_of_kept hf (setFlag_flags _ _ _).2 (by decide)
  case TXS | PHA | PHP | NOP => cases h; simp

/-- Settles O30: the control transfers write no flag but RTI, which may write all. -/
theorem flagFrame : Obligations.FlagFrame := by
  intro i s t f h hf
  cases hj : i.mnemonic.isControlTransfer
  · obtain ⟨u, hu, hx⟩ := exec_eq_runOperation hj s
    cases hx.symm.trans h
    exact runOperation_flag hu hf
  cases i
  case rti => cases f <;> cases hf
  case bcc | bcs | beq | bne | bmi | bpl | bvc | bvs | jmpAbs | jmpInd | jsr | rts => cases h; simp
  all_goals exact nomatch hj

end Sys2Proof.Machine
end

/-! # Arithmetic, loads and stores (40_addressing_modes.md R164 to R172, 41_arithmetic_compare.md R191 to R203,
42_logic_shift.md R221 to R223, 43_load_store_transfer.md R251 to R262)

Every form of a mnemonic is its shared operation on the operand of that form; what is left is what the operation leaves
in numbers, and the effective address of each mode in numbers. -/

section
namespace Sys2Proof.Machine

/-! ## Signed sums -/

/-- Bit 7 alone, tested against zero. -/
theorem and_0x80_bne (v : Byte) : ((v &&& 0x80#8) != 0#8) = v.msb := by
  revert v
  decide

/-- Overflow of a sum: the operands have one sign and the result the other. -/
theorem addCarry_overflow (a m : Byte) (c : Bool) :
    (addCarry a m c).overflow = (a.msb == m.msb && a.msb != (addCarry a m c).result.msb) := by
  simp only [addCarry, and_0x80_bne, BitVec.msb_and, BitVec.msb_not, BitVec.msb_xor]
  cases a.msb <;> cases m.msb <;> rfl

/-- V after a sum is clear exactly when the signed sum fits into a byte, and then it is the result (R191). -/
theorem addCarry_signed (a m : Byte) (c : Bool) :
    ((addCarry a m c).overflow = false ↔
      -128 ≤ a.toInt + m.toInt + c.toNat ∧ a.toInt + m.toInt + c.toNat ≤ 127) ∧
    (-128 ≤ a.toInt + m.toInt + c.toNat ∧ a.toInt + m.toInt + c.toNat ≤ 127 →
      (addCarry a m c).result.toInt = a.toInt + m.toInt + c.toNat) := by
  have ha := a.isLt
  have hm := m.isLt
  have hc := c.toNat_le
  have hr : (addCarry a m c).result.toNat = (a.toNat + m.toNat + c.toNat) % 256 := BitVec.toNat_ofNat _ _
  have hr' := (addCarry a m c).result.isLt
  rw [addCarry_overflow]
  simp only [BitVec.msb_eq_decide, BitVec.toInt_eq_toNat_cond, Bool.and_eq_false_iff, beq_eq_false_iff_ne,
    bne_eq_false_iff_eq, ne_eq, decide_eq_decide]
  constructor
  · split_ifs <;> omega
  · split_ifs <;> omega

/-- The signed value of a complement. -/
theorem toInt_xor_0xFF (m : Byte) : (m ^^^ 0xFF#8).toInt = -1 - m.toInt := by
  have hm := m.isLt
  rw [xor_0xFF]
  simp only [BitVec.toInt_eq_toNat_cond, BitVec.toNat_not]
  split_ifs <;> omega

/-- Settles O10: `addCarry_signed`, for SBC at the complement. -/
theorem overflowIsSigned : Obligations.OverflowIsSigned := by
  intro v s fits sum diff
  have hV (r : Alu) : getFlag .V (arithFlags r s.p) = r.overflow := (arithFlags_flags r s.p).2.1
  refine ⟨⟨_, exec_adcImm v s, ?_⟩, ⟨_, exec_sbcImm v s, ?_⟩⟩
  · obtain ⟨hover, hres⟩ := addCarry_signed s.a v (s.flag .C)
    exact ⟨(by rw [← hV]; rfl : _ ↔ _).trans hover, hres⟩
  · obtain ⟨hover, hres⟩ := addCarry_signed s.a (v ^^^ 0xFF#8) (s.flag .C)
    have hdiff : s.a.toInt + (v ^^^ 0xFF#8).toInt + ((s.flag .C).toNat : Int) = diff := by
      rw [toInt_xor_0xFF]
      simp only [diff]
      ring
    rw [hdiff, addCarry_complement] at hover hres
    exact ⟨(by rw [← hV]; rfl : _ ↔ _).trans hover, hres⟩

/-! ## INC and DEC -/

theorem byte_sub_one_eq_ofNat (b : Byte) : b - 1 = BitVec.ofNat 8 (b.toNat + 255) :=
  sub_eq_ofNat b 1

/-- Settles O12: each form reads and writes its effective address once, and sets Z and N. -/
theorem incDecMemory : Obligations.IncDecMemory := by
  intro i s d h
  obtain ⟨h, rfl⟩ | ⟨h, rfl⟩ := h
  · obtain ⟨ea, hea, -, hx⟩ := exec_of_INC i s h
    refine ⟨ea, _, _, _, hea, rfl, ?_, znFrom_setZN _ _, setZN_kept _ _⟩
    rw [hx, inc, byte_add_one_eq_ofNat]
    rfl
  · obtain ⟨ea, hea, -, hx⟩ := exec_of_DEC i s h
    refine ⟨ea, _, _, _, hea, rfl, ?_, znFrom_setZN _ _, setZN_kept _ _⟩
    rw [hx, dec, byte_sub_one_eq_ofNat]
    rfl

/-! ## Logic and loads -/

/-- Settles O14: each form is its operation on its operand. -/
theorem logicResults : Obligations.LogicResults := by
  intro i s f h
  obtain ⟨h, rfl⟩ | ⟨h, rfl⟩ | ⟨h, rfl⟩ := h
  · obtain ⟨o, hop, hx⟩ := exec_of_AND i s h
    exact ⟨_, _, _, hop, hx, znFrom_setZN _ _, setZN_kept _ _⟩
  · obtain ⟨o, hop, hx⟩ := exec_of_ORA i s h
    exact ⟨_, _, _, hop, hx, znFrom_setZN _ _, setZN_kept _ _⟩
  · obtain ⟨o, hop, hx⟩ := exec_of_EOR i s h
    exact ⟨_, _, _, hop, hx, znFrom_setZN _ _, setZN_kept _ _⟩

/-- An operand is the immediate byte, or one read of the effective address. -/
theorem operandOf_cases {i : Instr} {s t : State} {m : Byte} (h : operandOf i s = some (m, t)) :
    i.mode = .imm m ∧ t = s ∨ ∃ ea, modeAddress i.mode s = some ea ∧ cpuRead ea s = (m, t) := by
  unfold operandOf at h
  split at h
  next v hv => cases h; exact .inl ⟨hv, rfl⟩
  next => exact .inr (by simpa using h)

/-- Settles O18: each form is its operation on its operand, the immediate byte or one read. -/
theorem loadResults : Obligations.LoadResults := by
  intro i s h
  have hform : ∃ o, operandOf i s = some (readSource o s) ∧
      (i.mnemonic = .LDA → exec i s = .next (lda o s)) ∧ (i.mnemonic = .LDX → exec i s = .next (ldx o s)) ∧
      (i.mnemonic = .LDY → exec i s = .next (ldy o s)) := by
    obtain h | h | h := h
    · obtain ⟨o, hop, hx⟩ := exec_of_LDA i s h
      exact ⟨o, hop, fun _ => hx, by simp [h], by simp [h]⟩
    · obtain ⟨o, hop, hx⟩ := exec_of_LDX i s h
      exact ⟨o, hop, by simp [h], fun _ => hx, by simp [h]⟩
    · obtain ⟨o, hop, hx⟩ := exec_of_LDY i s h
      exact ⟨o, hop, by simp [h], by simp [h], fun _ => hx⟩
  obtain ⟨o, hop, ha, hx, hy⟩ := hform
  exact ⟨_, _, _, hop, operandOf_cases hop, znFrom_setZN _ s.p, setZN_kept _ _, ha, hx, hy⟩

/-! ## The effective addresses -/

/-- An address of page zero as a number. -/
theorem zeroPage_eq (z : Byte) : zeroPage z = BitVec.ofNat 16 z.toNat := by
  simp [zeroPage, word16_eq]

/-- An index added to an address, modulo 65536. -/
theorem ofNat_add_zeroExtend (n : Nat) (x : Byte) :
    BitVec.ofNat 16 n + x.zeroExtend 16 = BitVec.ofNat 16 (n + x.toNat) := by
  rw [BitVec.ofNat_add, BitVec.ofNat_toNat]

theorem add_zeroExtend_eq (w : Addr) (x : Byte) : w + x.zeroExtend 16 = BitVec.ofNat 16 (w.toNat + x.toNat) := by
  rw [← ofNat_add_zeroExtend, BitVec.ofNat_toNat, BitVec.setWidth_eq]

/-- A pointer in page zero, both of whose bytes come from page zero. -/
theorem zeroPagePointer_eq (z : Byte) (s : State) :
    zeroPagePointer z s =
      BitVec.ofNat 16 ((s.zp.read ((z.toNat + 1) % 256)).toNat * 256 + (s.zp.read z.toNat).toNat) := by
  have hz : (z + 1).toNat = (z.toNat + 1) % 256 := BitVec.toNat_add z 1
  rw [zeroPagePointer, word16_eq, peek_zeroPage, peek_zeroPage, hz]

/-- A store of `v` at `ea`: what it leaves of memory and registers. -/
theorem cpuWrite_results {s : State} (hwf : MemoriesWf s) (ea : Addr) (v : Byte) :
    (mirrorCpu s.cfg ea < 0x800 ∨ 0x6000 ≤ mirrorCpu s.cfg ea ∧ mirrorCpu s.cfg ea < 0x8000 →
      peek (cpuWrite ea v s) ea = v) ∧
    (0x8000 ≤ mirrorCpu s.cfg ea → cpuWrite ea v s = s) ∧
    (cpuWrite ea v s).p = s.p ∧ (cpuWrite ea v s).a = s.a ∧ (cpuWrite ea v s).x = s.x ∧
    (cpuWrite ea v s).y = s.y ∧ (cpuWrite ea v s).sp = s.sp ∧ (cpuWrite ea v s).pc = s.pc := by
  refine ⟨fun h => ?_, cpuWrite_rom, by simp⟩
  rw [cpuWrite_writable ea v s h, peek_storeCell _ _ _ _ (hwf _), if_pos rfl]

/-- Settles O19: each mode's address as a number; each form of a store is one write at its address. -/
theorem storeResults : Obligations.StoreResults := by
  intro s
  refine ⟨fun z w => ?_, fun i v hwf h => ?_⟩
  · intro pointer
    have hsum (b : Byte) : (z + b).toNat = (z.toNat + b.toNat) % 256 := BitVec.toNat_add z b
    have hptr (b : Byte) : zeroPagePointer b s = BitVec.ofNat 16 (pointer b.toNat) := by
      rw [zeroPagePointer_eq]
      simp only [pointer, Nat.mod_eq_of_lt b.isLt]
    refine ⟨congrArg some (zeroPage_eq z), ?_, ?_, rfl, congrArg some (add_zeroExtend_eq w _),
      congrArg some (add_zeroExtend_eq w _), ?_, ?_, by simp [modeAddress]⟩
    · rw [modeAddress, eaZpx, zeroPage_eq, hsum]
    · rw [modeAddress, eaZpy, zeroPage_eq, hsum]
    · rw [modeAddress, eaIzx, hptr, hsum]
      simp [pointer]
    · rw [modeAddress, eaIzy, hptr, ofNat_add_zeroExtend]
  · have hform : ∃ ea, modeAddress i.mode s = some ea ∧ exec i s = .next (cpuWrite ea v s) := by
      obtain ⟨h, rfl⟩ | ⟨h, rfl⟩ | ⟨h, rfl⟩ := h
      · obtain ⟨ea, hea, -, hx⟩ := exec_of_STA i s h
        exact ⟨ea, hea, hx⟩
      · obtain ⟨ea, hea, -, hx⟩ := exec_of_STX i s h
        exact ⟨ea, hea, hx⟩
      · obtain ⟨ea, hea, -, hx⟩ := exec_of_STY i s h
        exact ⟨ea, hea, hx⟩
    obtain ⟨ea, hea, hx⟩ := hform
    exact ⟨ea, _, hea, hx, rfl, cpuWrite_results hwf ea v⟩

/-! ## Index steps and transfers -/

/-- Settles O20: the four steps in numbers, and the copies. -/
theorem registerOnlyResults : Obligations.RegisterOnlyResults := by
  intro s
  simp only [← byte_add_one_eq_ofNat, ← byte_sub_one_eq_ofNat]
  exact ⟨⟨_, rfl, znFrom_setZN _ _, setZN_kept _ _⟩, ⟨_, rfl, znFrom_setZN _ _, setZN_kept _ _⟩,
    ⟨_, rfl, znFrom_setZN _ _, setZN_kept _ _⟩, ⟨_, rfl, znFrom_setZN _ _, setZN_kept _ _⟩,
    ⟨_, rfl, znFrom_setZN _ _, setZN_kept _ _⟩, ⟨_, rfl, znFrom_setZN _ _, setZN_kept _ _⟩,
    ⟨_, rfl, znFrom_setZN _ _, setZN_kept _ _⟩, ⟨_, rfl, znFrom_setZN _ _, setZN_kept _ _⟩,
    ⟨_, rfl, znFrom_setZN _ _, setZN_kept _ _⟩, rfl⟩

end Sys2Proof.Machine
end

/-! # The stack, BRK, RTI, jumps and branches (44_stack_flags.md R280 to R285, 45_control_system.md R310 to R325)

`push_eq` and `pull_eq` say that the stack operations are reads and writes of the stack page; a pull after a push is then
a read after a write of one memory. -/

section
namespace Sys2Proof.Machine

/-! ## The stack -/

/-- PLA, field by field. -/
theorem pullA_eq (s : State) :
    pullA s = { s with
      sp := s.sp + 1
      a := s.stk.read (s.sp + 1).toNat
      p := setZN (s.stk.read (s.sp + 1).toNat) s.p } := by
  rw [pullA, pull_eq]
  rfl

/-- PLP, field by field. -/
theorem pullP_eq (s : State) :
    pullP s = { s with sp := s.sp + 1, p := wholeByte (s.stk.read (s.sp + 1).toNat) } := by
  rw [pullP, pull_eq]
  rfl

/-- The return from a handler, field by field. -/
theorem leaveHandler_eq (s : State) :
    leaveHandler s =
      { s with sp := s.sp + 1, p := wholeByte (s.stk.read (s.sp + 1).toNat), ctx := .normal } := by
  rw [leaveHandler, pull_eq]

/-- What was pushed is pulled, at every stack pointer. -/
theorem read_pushed {m : Memory} (hm : m.wf) (sp v : Byte) : (m.write sp.toNat v).read (sp - 1 + 1).toNat = v := by
  rw [sub_add_cancel, Memory.read_write_same m hm]

/-- Settles O21: the pushes and pulls are `push_eq` and `pull_eq`, the round trip is `read_pushed`. -/
theorem stackInstructions : Obligations.StackInstructions := by
  intro s
  have hpha : exec .pha s = .next _ := congrArg Host.Outcome.next (push_eq s.a s)
  have hphp : exec .php s = .next _ := congrArg Host.Outcome.next (push_eq s.p s)
  have hpla (t : State) : exec .pla t = .next _ := congrArg Host.Outcome.next (pullA_eq t)
  have hplp (t : State) : exec .plp t = .next _ := congrArg Host.Outcome.next (pullP_eq t)
  refine ⟨hpha, hphp, ⟨_, hpla s, znFrom_setZN _ _, setZN_kept _ _⟩, hplp s, fun hw junk => ⟨?_, ?_⟩⟩
  · exact ⟨_, _, hpha, hpla _, read_pushed hw s.sp s.a, sub_add_cancel s.sp 1⟩
  · exact ⟨_, _, hphp, hplp _, congrArg wholeByte (read_pushed hw s.sp s.p), sub_add_cancel s.sp 1⟩

/-! ## BRK and RTI -/

/-- Settles O24: the two branches of `breakRequest`. -/
theorem brkResult : Obligations.BrkResult := by
  intro s
  rw [exec_brk, breakRequest]
  refine ⟨fun h => by rw [if_pos h], fun h => ⟨_, by rw [if_neg (by simp [h])]; rfl, setFlag_flags .B true s.p⟩⟩

/-- Settles O25: the two branches of RTI; a return is `leaveHandler` and PC from the resume address. -/
theorem rtiResult : Obligations.RtiResult := by
  intro s
  rw [exec_rti]
  refine ⟨fun h => ?_, fun h => if_pos h⟩
  rw [if_neg h, returnFromHandler, leaveHandler_eq]
  rfl

/-! ## Jumps and branches -/

/-- The second byte of an indirect pointer comes from the same page. -/
theorem pointer_high_address (w : Addr) :
    word16 (lowByte w + 1) (highByte w) = BitVec.ofNat 16 (w.toNat / 256 * 256 + (w.toNat + 1) % 256) := by
  have hlow : (lowByte w + 1).toNat = (w.toNat + 1) % 256 := by
    rw [BitVec.toNat_add, lowByte_toNat]
    exact Nat.mod_add_mod w.toNat 256 1
  rw [word16_eq, highByte_toNat, hlow]

/-- Settles O26: the indirect jump is two reads, of the pointer and of the next address in its page. -/
theorem nopAndJumps : Obligations.NopAndJumps := by
  intro s w
  refine ⟨rfl, rfl, ?_⟩
  intro second
  have hsecond : word16 (lowByte w + 1) (highByte w) = second := pointer_high_address w
  refine ⟨_, _, _, _, rfl, rfl, ?_⟩
  rw [exec_jmpInd, jumpThrough, jumpIndirect, hsecond, word16_eq]
  rfl

/-- JSR, field by field (R315). -/
theorem jumpSubroutine_eq (w : Addr) (s : State) :
    jumpSubroutine w s = { s with
      stk := (s.stk.write s.sp.toNat (highByte (s.pc - 1))).write (s.sp - 1).toNat (lowByte (s.pc - 1))
      sp := s.sp - 2
      pc := w } := by
  have hsp : s.sp - 1 - 1 = s.sp - 2 := by bv_omega
  rw [jumpSubroutine, push_eq, push_eq, ← hsp]
  rfl

/-- RTS, field by field (R316). -/
theorem returnSubroutine_eq (s : State) :
    returnSubroutine s = { s with
      sp := s.sp + 2
      pc := word16 (s.stk.read (s.sp + 1).toNat) (s.stk.read (s.sp + 2).toNat) + 1 } := by
  have hsp : s.sp + 1 + 1 = s.sp + 2 := by bv_omega
  rw [returnSubroutine, pull_eq, pull_eq, ← hsp]
  rfl

/-- Settles O27: the two bytes pushed are read back in the other order. -/
theorem callAndReturn : Obligations.CallAndReturn := by
  intro s w
  have hjsr : exec (.jsr w) s = .next _ := congrArg Host.Outcome.next (jumpSubroutine_eq w s)
  have hrts (t : State) : exec .rts t = .next _ := congrArg Host.Outcome.next (returnSubroutine_eq t)
  refine ⟨hjsr, hrts s, fun hw => ⟨_, _, hjsr, hrts _, ?_, ?_⟩⟩
  · have hlow : s.sp - 2 + 1 = s.sp - 1 := by bv_omega
    have hne : s.sp.toNat ≠ (s.sp - 1).toNat := by bv_omega
    simp only [sub_add_cancel, hlow, Memory.read_write_same _ (Memory.wf_write _ hw _ _),
      Memory.read_write _ (Memory.wf_write _ hw _ _), if_neg hne, Memory.read_write_same _ hw, word16_bytes]
  · exact sub_add_cancel s.sp 2

/-- A branch moves PC, as a sum of integers, when it is taken. -/
theorem branch_eq (taken : Bool) (d : Byte) (s : State) :
    branch taken d s = { s with pc := if taken then BitVec.ofInt 16 (s.pc.toNat + d.toInt) else s.pc } := by
  rw [branch, branchTarget_eq]
  cases taken <;> rfl

/-- Settles O28: each of the eight is `branch` on its condition. -/
theorem branchResults : Obligations.BranchResults := by
  intro s d i taken h
  have hx : exec i s = .next (branch taken d s) := by
    simp only [List.mem_cons, Prod.mk.injEq, List.not_mem_nil, or_false] at h
    obtain ⟨rfl, rfl⟩ | ⟨rfl, rfl⟩ | ⟨rfl, rfl⟩ | ⟨rfl, rfl⟩ | ⟨rfl, rfl⟩ | ⟨rfl, rfl⟩ | ⟨rfl, rfl⟩ | ⟨rfl, rfl⟩ := h
    all_goals rfl
  rw [hx, branch_eq]

end Sys2Proof.Machine
end

/-! # The decimal flag (10_state.md R28, 41_arithmetic_compare.md R192)

No access looks at P, and no operation reads or writes D but those the statement leaves out; so writing D commutes with
every other instruction. -/

section
namespace Sys2Proof.Machine

/-! ## Accesses do not look at P -/

theorem dispatchRead_setP (m : Nat) (s : State) (q : Byte) :
    dispatchRead m (s.setP q) = (dispatchRead m s).map fun r => (r.1, r.2.setP q) := by
  simp only [dispatchRead, apply_ite (Option.map _), Option.map_some, Option.map_none]
  rfl

theorem cpuRead_setP (a : Addr) (s : State) (q : Byte) :
    cpuRead a (s.setP q) = ((cpuRead a s).1, (cpuRead a s).2.setP q) := by
  simp only [cpuRead, State.setP_cfg, peek_setP, dispatchRead_setP]
  cases translateCpu (mirrorCpu s.cfg a) with
  | some r => rfl
  | none => cases dispatchRead (mirrorCpu s.cfg a) s <;> rfl

theorem oamDmaFrom_setP (n i : Nat) (page : Byte) (s : State) (q : Byte) :
    oamDmaFrom n i page (s.setP q) = (oamDmaFrom n i page s).setP q := by
  induction n generalizing i s with
  | zero => rfl
  | succ n ih =>
    let r := cpuRead (BitVec.ofNat 16 (page.toNat * 256 + i)) s
    rw [oamDmaFrom, oamDmaFrom, cpuRead_setP]
    exact ih (i + 1) (r.2.setPpu { r.2.ppu with oam := r.2.ppu.oam.write i r.1 })

theorem dispatchWrite_setP (m : Nat) (v : Byte) (s : State) (q : Byte) :
    dispatchWrite m v (s.setP q) = (dispatchWrite m v s).map fun t => t.setP q := by
  simp only [dispatchWrite, oamDma, oamDmaFrom_setP, apply_ite (Option.map _), Option.map_some, Option.map_none]
  rfl

theorem storeCell_setP (s : State) (m : Nat) (v q : Byte) : storeCell (s.setP q) m v = (storeCell s m v).setP q := by
  simp only [storeCell, State.setP_memory]
  cases (cellOf m).1 <;> rfl

theorem cpuWrite_setP (a : Addr) (v : Byte) (s : State) (q : Byte) :
    cpuWrite a v (s.setP q) = (cpuWrite a v s).setP q := by
  simp only [cpuWrite, State.setP_cfg, dispatchWrite_setP, storeCell_setP]
  split
  · rfl
  cases translateCpu (mirrorCpu s.cfg a) with
  | some r => dsimp only; split <;> rfl
  | none => cases dispatchWrite (mirrorCpu s.cfg a) v s <;> rfl

theorem readSource_setP (o : Source) (s : State) (q : Byte) :
    readSource o (s.setP q) = ((readSource o s).1, (readSource o s).2.setP q) := by
  cases o
  · rfl
  · exact cpuRead_setP _ s q

theorem readPlace_setP (l : Place) (s : State) (q : Byte) :
    readPlace l (s.setP q) = ((readPlace l s).1, (readPlace l s).2.setP q) := by
  cases l
  · rfl
  · exact cpuRead_setP _ s q

theorem writePlace_setP (l : Place) (v : Byte) (s : State) (q : Byte) :
    writePlace l v (s.setP q) = (writePlace l v s).setP q := by
  cases l
  · rfl
  · exact cpuWrite_setP _ v s q

theorem formOf_setP (i : Instr) (s : State) (q : Byte) : formOf i (s.setP q) = formOf i s := by
  have h (m : Mode) : modeAddress m (s.setP q) = modeAddress m s := by
    cases m <;> simp [modeAddress, eaZp, eaZpx, eaZpy, eaAbs, eaAbx, eaAby, eaIzx, eaIzy, zeroPagePointer]
  simp only [formOf, h]

/-! ## Writing D commutes with every other write of a flag -/

/-- `s` with D set to `b`. -/
def withDecimal (b : Bool) (s : State) : State := s.setP (setFlag .D b s.p)

@[simp] theorem flag_withDecimal {f : Flag} (hf : f ≠ .D) (b : Bool) (s : State) :
    (withDecimal b s).flag f = s.flag f := by
  simp [withDecimal, State.flag, hf]

/-- A flag byte is its eight flags. -/
theorem eq_of_getFlag {p q : Byte} (h : ∀ f, getFlag f p = getFlag f q) : p = q := by
  refine BitVec.eq_of_getLsbD_eq fun i hi => ?_
  match i, hi with
  | 0, _ => exact h .C
  | 1, _ => exact h .Z
  | 2, _ => exact h .I
  | 3, _ => exact h .D
  | 4, _ => exact h .B
  | 5, _ => exact h .U
  | 6, _ => exact h .V
  | 7, _ => exact h .N

theorem setFlag_decimal {f : Flag} (hf : f ≠ .D) (b c : Bool) (p : Byte) :
    setFlag f c (setFlag .D b p) = setFlag .D b (setFlag f c p) := by
  refine eq_of_getFlag fun g => ?_
  by_cases hg : g = .D <;> simp [hg, hf.symm]

theorem setZN_decimal (v : Byte) (b : Bool) (p : Byte) : setZN v (setFlag .D b p) = setFlag .D b (setZN v p) := by
  simp [setZN, setFlag_decimal]

theorem arithFlags_decimal (r : Alu) (b : Bool) (p : Byte) :
    arithFlags r (setFlag .D b p) = setFlag .D b (arithFlags r p) := by
  simp [arithFlags, setFlag_decimal, setZN_decimal]

theorem compareFlags_decimal (reg m : Byte) (b : Bool) (p : Byte) :
    compareFlags reg m (setFlag .D b p) = setFlag .D b (compareFlags reg m p) := by
  simp [compareFlags, setFlag_decimal, setZN_decimal]

theorem bitFlags_decimal (a m : Byte) (b : Bool) (p : Byte) :
    bitFlags a m (setFlag .D b p) = setFlag .D b (bitFlags a m p) := by
  simp [bitFlags, setFlag_decimal]

theorem shiftFlags_decimal (r : Shifted) (b : Bool) (p : Byte) :
    shiftFlags r (setFlag .D b p) = setFlag .D b (shiftFlags r p) := by
  simp [shiftFlags, setFlag_decimal, setZN_decimal]

/-! ## Every operation commutes with it -/

theorem runOperation_withDecimal {m : Mnemonic} (hm : m ∉ [.PHP, .PLP, .RTI, .SED, .CLD]) (form : Form) (b : Bool)
    (s : State) : runOperation m form (withDecimal b s) = (runOperation m form s).map (withDecimal b) := by
  have hC := flag_withDecimal (f := .C) (by decide) b s
  have hI := flag_withDecimal (f := .I) (by decide) b s
  unfold withDecimal at hC hI ⊢
  cases m
  case PHP | PLP | RTI | SED | CLD => simp at hm
  case JMP | JSR | RTS | BCC | BCS | BEQ | BNE | BMI | BPL | BVC | BVS => rfl
  case ADC | SBC | CMP | CPX | CPY | AND | ORA | EOR | LDA | LDX | LDY =>
    rw [runOperation, runOperation, Option.map_map]
    refine Option.map_congr fun o _ => ?_
    simp only [Function.comp_apply, adc, sbc, compareA, compareX, compareY, andOp, oraOp, eorOp, lda, ldx, ldy,
      readSource_setP, hC, State.setP_p, arithFlags_decimal, compareFlags_decimal, setZN_decimal]
    rfl
  case BIT | INC | DEC =>
    rw [runOperation, runOperation, Option.map_map]
    refine Option.map_congr fun ea _ => ?_
    simp only [Function.comp_apply, bitTest, inc, dec, cpuRead_setP, cpuWrite_setP, State.setP_p, setZN_decimal,
      bitFlags_decimal]
    rfl
  case STA | STX | STY =>
    rw [runOperation, runOperation, Option.map_map]
    refine Option.map_congr fun ea _ => ?_
    simp only [Function.comp_apply, storeA, storeX, storeY, cpuWrite_setP, cpuWrite_p]
    rfl
  case ASL | LSR | ROL | ROR =>
    rw [runOperation, runOperation, Option.map_map]
    refine Option.map_congr fun l _ => ?_
    simp only [Function.comp_apply, asl, lsr, rol, ror, shiftOp, readPlace_setP, writePlace_setP, hC, State.setP_p,
      shiftFlags_decimal]
    rfl
  case INX | INY | DEX | DEY | TAX | TAY | TXA | TYA | TSX =>
    simp only [runOperation, Option.map_some, incX, incY, decX, decY, copyToA, copyToX, copyToY, State.setP_p,
      setZN_decimal]
    rfl
  case PLA =>
    simp only [runOperation, Option.map_some, pullA_eq, State.setP_p, setZN_decimal]
    rfl
  case PHA =>
    simp only [runOperation, Option.map_some, push_eq]
    rfl
  case CLC | SEC | CLI | SEI | CLV =>
    simp only [runOperation, Option.map_some, writeFlag, State.setP_p]
    rw [setFlag_decimal (by decide)]
    rfl
  case BRK =>
    simp only [runOperation, Option.map_some, breakRequest, hI, State.setP_p]
    rw [setFlag_decimal (by decide)]
    cases s.flag .I <;> rfl
  case TXS | NOP => rfl

/-- Settles O13: the operations commute with writing D; a control transfer reads no D, and RTI alone moves it. -/
theorem decimalFlagHasNoEffect : Obligations.DecimalFlagHasNoEffect := by
  intro i s t b hm h
  show exec i (withDecimal b s) = .next (withDecimal b t)
  cases hj : i.mnemonic.isControlTransfer
  · obtain ⟨u, hu, hx⟩ := exec_eq_runOperation hj s
    obtain ⟨u', hu', hx'⟩ := exec_eq_runOperation hj (withDecimal b s)
    cases hx.symm.trans h
    rw [withDecimal, formOf_setP] at hu'
    have := hu'.symm.trans ((runOperation_withDecimal hm (formOf i s) b s).trans (congrArg _ hu))
    rw [hx', Option.some.inj this]
  cases i
  case rti => exact absurd (by decide) hm
  case bcc | bcs | beq | bne | bmi | bpl | bvc | bvs =>
    cases h
    refine congrArg Host.Outcome.next ?_
    rw [flag_withDecimal (by decide), branch_eq, branch_eq]
    rfl
  case jmpAbs => cases h; rfl
  case jmpInd =>
    cases h
    refine congrArg Host.Outcome.next ?_
    simp only [withDecimal, jumpThrough, jumpIndirect, cpuRead_setP, State.setPc_p, cpuRead_p]
    rfl
  case jsr =>
    cases h
    refine congrArg Host.Outcome.next ?_
    rw [jumpSubroutine_eq, jumpSubroutine_eq]
    rfl
  case rts =>
    cases h
    refine congrArg Host.Outcome.next ?_
    rw [returnSubroutine_eq, returnSubroutine_eq]
    rfl
  all_goals exact nomatch hj

end Sys2Proof.Machine
end

/-! # The checkpoint, restart and pause (45_control_system.md R330 to R343) -/

section
namespace Sys2Proof.Machine

/-! ## Entry and abort -/

/-- The entry both layers share, field by field (R332). -/
theorem enterHandler_eq (k : InterruptKind) (s : State) :
    enterHandler k s = { s with
      nmiPending := false
      irqPending := false
      stk := s.stk.write s.sp.toNat s.p
      sp := s.sp - 1
      p := setFlag .I true s.p
      ctx := if k = .nmi then .inNmi else .inIrq } := by
  unfold enterHandler
  rw [push_eq]
  cases k <;> rfl

/-- A 16-bit read of program storage changes nothing. -/
theorem read16_programStorage {a : Addr} {s : State} (hmir : s.cfg.regMirrorHi ≤ 0x8000)
    (ha : 0x8000 ≤ a.toNat) (ha1 : a.toNat < 0xFFFF) :
    read16 a s = (BitVec.ofNat 16 ((s.prg.read (a.toNat - 0x8000 + 1)).toNat * 256 +
      (s.prg.read (a.toNat - 0x8000)).toNat), s) := by
  have hnext : (a + 1).toNat = a.toNat + 1 := by
    rw [BitVec.toNat_add]
    exact Nat.mod_eq_of_lt (show a.toNat + 1 < 2 ^ 16 by omega)
  have hoff : a.toNat + 1 - 0x8000 = a.toNat - 0x8000 + 1 := by omega
  rw [read16, cpuRead_programStorage a s hmir ha, cpuRead_programStorage (a + 1) s hmir (by omega),
    peek_programStorage a s hmir ha, peek_programStorage (a + 1) s hmir (by omega), word16_eq, hnext, hoff]

/-- Settles O48: the shared entry, then the vector out of program storage. -/
theorem interruptEntry : Obligations.InterruptEntry := by
  intro s hctx hmir
  refine ⟨fun h => ?_, fun h => ?_⟩
  · rw [serveInterrupts, if_neg (by simp [State.pending, h])]
  intro off
  refine ⟨setFlag .I true s.p, ?_⟩
  intro entered
  have hpend : s.pending = true := by simpa [State.pending] using h
  obtain ⟨hI, hkept⟩ := setFlag_flags .I true s.p
  have hentered : enterHandler (interruptKind s) s = entered := by
    simp only [enterHandler_eq, interruptKind, entered]
    cases s.nmiPending <;> rfl
  refine ⟨hI, hkept, ?_, ?_⟩
  · have hvec : (vectorOf (interruptKind s)).toNat - 0x8000 = off ∧ 0x8000 ≤ (vectorOf (interruptKind s)).toNat ∧
        (vectorOf (interruptKind s)).toNat < 0xFFFF := by
      simp only [interruptKind, off]
      cases s.nmiPending <;> decide
    obtain ⟨hoff, hlo, hhi⟩ := hvec
    simp only [serveInterrupts, if_pos hpend, if_pos hctx, enterInterrupt]
    rw [hentered, read16_programStorage (by exact hmir) hlo hhi, hoff]
    rfl
  · have hport : portSync 0 s = (enterHandler (interruptKind s) s, .callHandler (interruptKind s)) := by
      rw [portSync, Nat.mul_zero, ppuAdvance, if_pos hpend, if_pos hctx]
    rw [hport, hentered, interruptKind]

/-- Settles O49: the abort is the return from the handler; no request is touched. -/
theorem handlerAbort : Obligations.HandlerAbort := by
  intro s hctx left
  have hleft : leaveHandler s = left := leaveHandler_eq s
  refine ⟨fun h => ?_, fun h => ?_, hleft⟩
  · rw [serveInterrupts, if_neg (by simp [State.pending, h])]
  · have hpend : s.pending = true := by simpa [State.pending] using h
    constructor
    · rw [serveInterrupts, if_pos hpend, if_neg hctx, returnFromHandler, hleft]
      rfl
    · rw [portSync, Nat.mul_zero, ppuAdvance, if_pos hpend, if_neg hctx]

/-! ## What a checkpoint keeps -/

/-- What an entry or an abort keeps: program storage and what only the host writes. -/
theorem serveInterrupts_kept (s : State) :
    (serveInterrupts s).prg = s.prg ∧ (serveInterrupts s).prgPristine = s.prgPristine ∧
      (serveInterrupts s).cfg = s.cfg ∧ (serveInterrupts s).controls = s.controls ∧
      (serveInterrupts s).restartRequested = s.restartRequested ∧
      (serveInterrupts s).ppu.masterSlave = s.ppu.masterSlave := by
  unfold serveInterrupts
  split
  · split
    · simp [enterInterrupt, enterHandler_eq, read16]
    · simp [returnFromHandler, leaveHandler_eq]
  · simp

/-- A checkpoint of `n` processor cycles: the PPU's, then the interrupts; a requested restart wins (R330, R336). -/
theorem sync_eq (n : Nat) (s : State) :
    sync n s = if s.restartRequested then restart s else serveInterrupts (ppuCycle^[3 * n] s) := by
  obtain ⟨-, hpristine, hcfg, hcontrols, hreq, -⟩ := serveInterrupts_kept (ppuAdvance (3 * n) s)
  have hrestart : restart (serveInterrupts (ppuAdvance (3 * n) s)) = restart s := by
    simp only [restart, hpristine, hcfg, hcontrols, ppuAdvance_prgPristine, ppuAdvance_cfg, ppuAdvance_controls]
  rw [sync, ppuCpuRatio, serveRestart, hreq, ppuAdvance_restartRequested, hrestart, ppuAdvance_eq_iterate]

/-- Layer 1 runs the same PPU cycles, then answers as a checkpoint of none. -/
theorem portSync_eq (n : Nat) (s : State) : portSync n s = portSync 0 (ppuCycle^[3 * n] s) := by
  rw [← ppuAdvance_eq_iterate]
  rfl

/-- The step of a paused machine: a requested restart and nothing else. -/
theorem step_of_paused {s : State} (h : s.controls.paused = true) : step s = .next (serveRestart s) := by
  rw [step, if_pos h, holdPaused]

/-- Settles O50: the order of the checkpoint is `sync_eq`; a restart reads nothing that the PPU, an entry or an
abort changes. -/
theorem restartAndPause : Obligations.RestartAndPause := by
  intro s n t fresh
  have hserve (h : s.restartRequested = true) : serveRestart s = fresh := if_pos h
  refine ⟨fun h => ?_, fun h => ?_, portSync_eq n s, fun h => ?_, ?_, hserve, rfl, fun hp h => ?_, fun hp h => ?_,
    fun _ => rfl⟩
  · simp [sync_eq, h, t]
  · simp [sync_eq, h, restart, fresh]
  · simp [portSync, ppuAdvance, h, restartAnswer]
  · simp [portHandlerReturn, leaveHandler_eq, restartAnswer]
  · rw [step_of_paused hp, hserve h]
  · simp [step_of_paused hp, serveRestart, h]

/-! ## What a step keeps -/

/-- The fetch keeps what no read writes. -/
theorem fetch_kept {s : State} {f : Fetched} (h : fetch s = .ok f) :
    f.state.prg = s.prg ∧ f.state.prgPristine = s.prgPristine ∧ f.state.cfg = s.cfg ∧
      f.state.controls = s.controls ∧ f.state.restartRequested = s.restartRequested ∧
      f.state.ppu.masterSlave = s.ppu.masterSlave :=
  fetch_induct (fun t => t.prg = s.prg ∧ t.prgPristine = s.prgPristine ∧ t.cfg = s.cfg ∧
      t.controls = s.controls ∧ t.restartRequested = s.restartRequested ∧ t.ppu.masterSlave = s.ppu.masterSlave)
    (fun a t ht => by simpa using ht) ⟨rfl, rfl, rfl, rfl, rfl, rfl⟩ h

/-- A fetch and its instruction keep program storage and what only the host writes. -/
theorem fetch_exec_kept {s u : State} {f : Fetched} (hf : fetch s = .ok f)
    (hu : exec f.instr (advancePc f.len f.state) = .next u) :
    u.prg = s.prg ∧ u.prgPristine = s.prgPristine ∧ u.cfg = s.cfg ∧ u.controls = s.controls ∧
      u.restartRequested = s.restartRequested := by
  obtain ⟨hprg, hpristine, hcfg, hcontrols, hreq, -⟩ := fetch_kept hf
  obtain ⟨v, hacc, hregs, -⟩ := exec_effect hu
  obtain ⟨-, -, aprg, apristine, acontrols, areq, acfg⟩ := hacc.kept
  rw [hregs]
  exact ⟨aprg.trans hprg, apristine.trans hpristine, acfg.trans hcfg, acontrols.trans hcontrols, areq.trans hreq⟩

/-- A checkpoint keeps the pristine copy, the parameters and the controls; program storage it keeps or restores. -/
theorem sync_kept (n : Nat) (s : State) :
    (sync n s).prgPristine = s.prgPristine ∧ (sync n s).cfg = s.cfg ∧ (sync n s).controls = s.controls ∧
      (s.prg = s.prgPristine → (sync n s).prg = s.prgPristine) := by
  rw [sync_eq]
  split
  · exact ⟨rfl, rfl, rfl, fun _ => rfl⟩
  · obtain ⟨hprg, hpristine, hcfg, hcontrols, -⟩ := serveInterrupts_kept (ppuAdvance (3 * n) s)
    rw [← ppuAdvance_eq_iterate, hprg, hpristine, hcfg, hcontrols]
    simp

/-- Settles O57: neither the fetch nor an instruction writes any of them, and a restart puts the pristine copy into
program storage. -/
theorem pristineCopyNeverWritten : Obligations.PristineCopyNeverWritten := by
  intro s t h
  obtain ⟨-, rfl⟩ | ⟨f, u, -, hf, hu, rfl⟩ := step_next_cases h
  · rw [holdPaused, serveRestart]
    split
    · exact ⟨rfl, rfl, rfl, fun _ => rfl⟩
    · exact ⟨rfl, rfl, rfl, id⟩
  · obtain ⟨hprg, hpristine, hcfg, hcontrols, -⟩ := fetch_exec_kept hf hu
    obtain ⟨spristine, scfg, scontrols, sprg⟩ := sync_kept (cyclesOf f.instr (advancePc f.len f.state)) u
    refine ⟨spristine.trans hpristine, scfg.trans hcfg, scontrols.trans hcontrols, fun heq => ?_⟩
    rw [spristine]
    exact sprg (by rw [hprg, hpristine, heq])

end Sys2Proof.Machine
end

/-! # The processor space (20_memory.md R71 to R87) and OAM DMA (46_device_registers.md R380)

An address lies in a static range, belongs to a device register, or is served by the fallback region; one lemma for
each says what a read of it answers. -/

section
namespace Sys2Proof.Machine

/-! ## Static ranges -/

/-- The static ranges are work RAM, save RAM and program storage (R74). -/
theorem translateCpu_static {m : Nat} (h : m < 0x800 ∨ 0x6000 ≤ m ∧ m < 0x10000) : ∃ r, translateCpu m = some r := by
  rw [← Option.isSome_iff_exists, translateCpu_eq]
  split_ifs <;> simp
  all_goals omega

/-- A read of a static range answers the byte of its cell. -/
theorem cpuRead_cell {a : Addr} {s : State} {m : Nat} {b : Backing} {k : Nat} (hm : mirrorCpu s.cfg a = m)
    (hstatic : m < 0x800 ∨ 0x6000 ≤ m ∧ m < 0x10000) (hcell : cellOf m = (b, k)) :
    cpuRead a s = ((s.memory b).read k, s) := by
  obtain ⟨r, hr⟩ := translateCpu_static hstatic
  rw [cpuRead_static a s r (by rw [hm, hr]), peek, hm, hcell]

/-- A register mirror that ends at or below save RAM folds no address of it or above. -/
theorem mirrorCpu_of_static {c : Config} {a : Addr} (hc : c.regMirrorHi ≤ 0x6000)
    (h : a.toNat < 0x2000 ∨ 0x6000 ≤ a.toNat) :
    mirrorCpu c a = if a.toNat < 0x2000 then a.toNat % 0x800 else a.toNat := by
  split
  next hlow => exact mirrorCpu_low c a hlow
  next => exact mirrorCpu_high c a (by omega) (by omega)

/-- Settles O38: the cell of a mirrored address, range by range. -/
theorem staticReads : Obligations.StaticReads := by
  intro s a hc m
  have hlt := a.isLt
  have hm (h : m < 0x800 ∨ 0x6000 ≤ m) : mirrorCpu s.cfg a = m := by
    refine mirrorCpu_of_static hc ?_
    by_contra hn
    simp only [m, if_neg (show ¬ a.toNat < 0x2000 by omega)] at h
    omega
  have hm16 : m < 0x10000 := by
    simp only [m]
    split <;> omega
  refine ⟨fun h => ?_, fun h0 h => ?_, fun h0 h => ?_, fun h0 h => ?_, fun h0 => ?_⟩
  · exact cpuRead_cell (hm (by omega)) (by omega) (by rw [cellOf_eq, if_pos h])
  · exact cpuRead_cell (hm (by omega)) (by omega) (by rw [cellOf_eq, if_neg (by omega), if_pos h])
  · exact cpuRead_cell (hm (by omega)) (by omega)
      (by rw [cellOf_eq, if_neg (by omega), if_neg (by omega), if_pos h])
  · exact cpuRead_cell (hm (by omega)) (by omega)
      (by rw [cellOf_eq, if_neg (by omega), if_neg (by omega), if_neg (by omega), if_neg (by omega), if_pos h])
  · exact cpuRead_cell (hm (by omega)) (by omega) (by
      rw [cellOf_eq, if_neg (by omega), if_neg (by omega), if_neg (by omega), if_neg (by omega),
        if_neg (by omega), if_pos hm16])

/-- The four addresses of a work-RAM cell mirror to it (R72). -/
theorem mirrorCpu_workRam (c : Config) {a k : Nat} (ha : a < 0x800) (hk : k < 4) :
    (BitVec.ofNat 16 (a + k * 0x800)).toNat < 0x2000 ∧ mirrorCpu c (BitVec.ofNat 16 (a + k * 0x800)) = a := by
  have htoNat : (BitVec.ofNat 16 (a + k * 0x800)).toNat = a + k * 0x800 := by
    rw [BitVec.toNat_ofNat]
    omega
  refine ⟨by omega, ?_⟩
  rw [mirrorCpu_low c _ (by omega), htoNat]
  omega

/-- Settles O35: the write stores in the one cell, and every read below 0x2000 is a static read of it. -/
theorem workRamMirrors : Obligations.WorkRamMirrors := by
  intro s a k v hwf ha hk j hj
  obtain ⟨-, hmk⟩ := mirrorCpu_workRam s.cfg ha hk
  obtain ⟨hlow, hmj⟩ := mirrorCpu_workRam s.cfg ha hj
  rw [cpuWrite_writable _ _ _ (by omega), hmk, cpuRead_low _ _ hlow, peek_storeCell _ _ _ _ (hwf _), if_pos hmj]

/-! ## The fallback region -/

/-- The mirrored addresses at which a register answers reads (R82). -/
theorem dispatchRead_none {m : Nat} (hm : m ≠ 0x2002 ∧ m ≠ 0x2004 ∧ m ≠ 0x2007 ∧ m ≠ 0x4015 ∧ m ≠ 0x4016 ∧ m ≠ 0x4017)
    (haudio : m < 0x4000 ∨ 0x4013 < m) (s : State) : dispatchRead m s = none := by
  obtain ⟨h1, h2, h3, h4, h5, h6⟩ := hm
  have haudio : isAudio m = false := by
    simp only [isAudio, Bool.or_eq_false_iff, Bool.and_eq_false_iff, decide_eq_false_iff_not, beq_eq_false_iff_ne]
    exact ⟨by omega, h4⟩
  simp [dispatchRead, h1, h2, h3, h5, h6, haudio]

/-- The mirrored addresses at which a register answers writes (R83). -/
theorem dispatchWrite_none {m : Nat}
    (hm : (m < 0x2000 ∨ 0x2007 < m ∨ m = 0x2002) ∧ m ≠ 0x4014 ∧ m ≠ 0x4015 ∧ m ≠ 0x4016 ∧ m ≠ 0x4017)
    (haudio : m < 0x4000 ∨ 0x4013 < m) (v : Byte) (s : State) : dispatchWrite m v s = none := by
  obtain ⟨hlow, h14, h15, h16, h17⟩ := hm
  have haudio : isAudio m = false := by
    simp only [isAudio, Bool.or_eq_false_iff, Bool.and_eq_false_iff, decide_eq_false_iff_not, beq_eq_false_iff_ne]
    exact ⟨by omega, h15⟩
  rw [dispatchWrite, if_neg (by omega), if_neg (by omega), if_neg (by omega), if_neg (by omega), if_neg (by omega),
    if_neg (by omega), if_neg (by omega), if_neg h14, if_neg h16, haudio]
  simp [h17]

/-- A read that no register answers is the fallback region's, and is logged (R77, R84). -/
theorem cpuRead_unmapped {a : Addr} {s : State} {m : Nat} (hm : mirrorCpu s.cfg a = m) (hlo : 0x800 ≤ m)
    (hhi : m < 0x6000) (hr : dispatchRead m s = none) :
    cpuRead a s = (s.fallback.read m, { s with anomalies := s.anomalies ++ [⟨m, .read⟩] }) := by
  simp only [cpuRead, hm, translateCpu_device hlo hhi, hr]
  rfl

/-- A write that no register answers is the fallback region's, and is logged (R77, R84). -/
theorem cpuWrite_unmapped {a : Addr} {v : Byte} {s : State} {m : Nat} (hm : mirrorCpu s.cfg a = m)
    (hlo : 0x800 ≤ m) (hhi : m < 0x6000) (hw : dispatchWrite m v s = none) :
    cpuWrite a v s = { s with
      anomalies := s.anomalies ++ [⟨m, .write⟩]
      fallback := s.fallback.write m v } := by
  simp only [cpuWrite, hm, if_neg (show ¬ 0x8000 ≤ m by omega), translateCpu_device hlo hhi, hw]
  rfl

/-- Settles O37: the mirrored address by its definition, and no register at any of the addresses named. -/
theorem fallbackRegion : Obligations.FallbackRegion := by
  intro s a v n m readsFallback writesFallback
  refine ⟨fun hlo hhi => ?_, fun h => ?_, fun h => ?_⟩
  · have hm : m = if n < 0x2000 then n % 0x800 else if 0x2008 < n ∧ n < 0x3000 then 0x2000 + n % 8 else n := by
      simp only [m, n, mirrorCpu, hlo, hhi]
    refine ⟨hm, fun h => ?_⟩
    have hmn : m = n := by
      rw [hm, if_neg (by omega), if_neg (by omega)]
    have hrange : m = 0x2008 ∨ 0x3000 ≤ m ∧ m ≤ 0x3FFF ∨ 0x4018 ≤ m ∧ m ≤ 0x5FFF := by rwa [hmn]
    exact ⟨hmn, cpuRead_unmapped rfl (by omega) (by omega) (dispatchRead_none (by omega) (by omega) s),
      cpuWrite_unmapped rfl (by omega) (by omega) (dispatchWrite_none (by omega) (by omega) v s)⟩
  · simp only [List.mem_cons, List.not_mem_nil, or_false] at h
    exact cpuRead_unmapped rfl (by omega) (by omega) (dispatchRead_none (by omega) (by omega) s)
  · exact cpuWrite_unmapped rfl (by omega) (by omega) (dispatchWrite_none (by omega) (by omega) v s)

/-! ## OAM DMA -/

/-- Byte `i` of a page. -/
abbrev pageAddr (page : Byte) (i : Nat) : Addr := BitVec.ofNat 16 (page.toNat * 256 + i)

theorem pageAddr_toNat (page : Byte) {i : Nat} (hi : i < 256) : (pageAddr page i).toNat = page.toNat * 256 + i := by
  have := page.isLt
  rw [BitVec.toNat_ofNat]
  omega

/-- One byte of OAM DMA: a full read, then an OAM write. -/
def oamDmaByte (page : Byte) (u : State) (i : Nat) : State :=
  let r := cpuRead (pageAddr page i) u
  { r.2 with ppu := { r.2.ppu with oam := r.2.ppu.oam.write i r.1 } }

/-- A DMA write copies the 256 bytes of its page in order. -/
theorem cpuWrite_oamDma {a : Addr} {s : State} (hm : mirrorCpu s.cfg a = 0x4014) (page : Byte) :
    cpuWrite a page s = (List.range 256).foldl (oamDmaByte page) s := by
  rw [cpuWrite_device hm (by decide) (by decide) (t := oamDma page s) rfl, oamDma, oamDmaFrom_eq_foldl,
    List.range_eq_range']
  rfl

/-- Where the reads of a page depend on neither the log nor OAM, and leave nothing but log entries, `n` bytes of
OAM DMA copy `n` bytes and log their reads. -/
theorem foldl_oamDmaByte {page : Byte} {s : State} (hwf : s.ppu.oam.wf) (value : Nat → Byte)
    (log : Nat → List Anomaly) {n : Nat}
    (hread : ∀ i < n, ∀ (l : List Anomaly) (oam : Memory),
      cpuRead (pageAddr page i) { s with anomalies := l, ppu := { s.ppu with oam := oam } } =
        (value i, { s with anomalies := l ++ log i, ppu := { s.ppu with oam := oam } })) :
    ∃ oam : Memory, (List.range n).foldl (oamDmaByte page) s = { s with
        anomalies := s.anomalies ++ (List.range n).flatMap log
        ppu := { s.ppu with oam := oam } } ∧ oam.wf ∧ ∀ i < n, oam.read i = value i := by
  induction n with
  | zero => exact ⟨s.ppu.oam, by simp, hwf, by simp⟩
  | succ n ih =>
    obtain ⟨oam, hfold, hoam, hbytes⟩ := ih fun i hi => hread i (by omega)
    refine ⟨oam.write n (value n), ?_, Memory.wf_write _ hoam _ _, fun i hi => ?_⟩
    · rw [List.range_succ, List.foldl_append, hfold, List.foldl_cons, List.foldl_nil, oamDmaByte,
        hread n (by omega), List.flatMap_append, List.flatMap_singleton, List.append_assoc]
    · rw [Memory.read_write _ hoam]
      split
      next h => rw [h]
      next h => exact hbytes i (by omega)

/-- A page of work RAM, save RAM or program storage is read without effects. -/
theorem cpuRead_pageAddr_static {page : Byte} {s : State} (hhi : s.cfg.regMirrorHi ≤ 0x4000)
    (hpage : page.toNat < 0x20 ∨ 0x60 ≤ page.toNat) {i : Nat} (hi : i < 256) :
    cpuRead (pageAddr page i) s = (peek s (pageAddr page i), s) := by
  have hn := pageAddr_toNat page hi
  have hlt := (pageAddr page i).isLt
  have hmirror := mirrorCpu_of_static (c := s.cfg) (a := pageAddr page i) (by omega) (by omega)
  obtain ⟨r, hr⟩ := translateCpu_static (m := mirrorCpu s.cfg (pageAddr page i)) (by
    rw [hmirror]
    split <;> omega)
  exact cpuRead_static _ _ r hr

/-- An unmapped page is read through the fallback region. -/
theorem cpuRead_pageAddr_unmapped {page : Byte} {s : State} (hhi : s.cfg.regMirrorHi ≤ 0x4000)
    (hpage : 0x41 ≤ page.toNat ∧ page.toNat < 0x60) {i : Nat} (hi : i < 256) :
    cpuRead (pageAddr page i) s = (s.fallback.read (page.toNat * 256 + i),
      { s with anomalies := s.anomalies ++ [⟨page.toNat * 256 + i, .read⟩] }) := by
  have hn := pageAddr_toNat page hi
  have hmirror : mirrorCpu s.cfg (pageAddr page i) = page.toNat * 256 + i := by
    rw [mirrorCpu_high _ _ (by omega) (by omega), hn]
  exact cpuRead_unmapped hmirror (by omega) (by omega) (dispatchRead_none (by omega) (by omega) s)

/-- Settles O46: the fold of full reads; of a static page they have no effects, of an unmapped page each is logged. -/
theorem oamDmaCopiesPage : Obligations.OamDmaCopiesPage := by
  intro s a page hm source
  refine ⟨cpuWrite_oamDma hm page, fun hwf hhi => ⟨fun hpage => ?_, fun hpage => ?_⟩⟩
  · obtain ⟨oam, hfold, hoam, hbytes⟩ := foldl_oamDmaByte (page := page) (n := 256) hwf (fun i => peek s (source i))
      (fun _ => []) fun i hi l oam => by
        have hpeek := peek_congr s { s with anomalies := l, ppu := { s.ppu with oam := oam } }
          (fun b => by cases b <;> rfl) rfl (source i)
        refine (cpuRead_pageAddr_static (by exact hhi) hpage hi).trans ?_
        rw [hpeek, List.append_nil]
    refine ⟨oam, ?_, hoam, hbytes⟩
    rw [cpuWrite_oamDma hm, hfold]
    simp
  · obtain ⟨oam, hfold, hoam, hbytes⟩ := foldl_oamDmaByte (page := page) (n := 256) hwf
      (fun i => s.fallback.read (page.toNat * 256 + i)) (fun i => [⟨page.toNat * 256 + i, .read⟩])
      fun i hi l oam => cpuRead_pageAddr_unmapped (by exact hhi) hpage hi
    refine ⟨oam, ?_, hoam, hbytes⟩
    rw [cpuWrite_oamDma hm, hfold, ← List.map_eq_flatMap]

end Sys2Proof.Machine
end

/-! # The PPU space (20_memory.md R100 to R108) and the device registers (46_device_registers.md) -/

section
namespace Sys2Proof.Machine

/-! ## The PPU space -/

/-- The cell behind an address of the PPU space, in the address modulo 0x4000 (R100 to R105). -/
theorem ppuCell_mirrorPpu (mir : Mirroring) (a : Addr) :
    ppuCell mir (mirrorPpu a) =
      if a.toNat % 0x4000 < 0x1000 then (.pattern0, a.toNat % 0x4000)
      else if a.toNat % 0x4000 < 0x2000 then (.pattern1, a.toNat % 0x4000 - 0x1000)
      else if a.toNat % 0x4000 < 0x3F00 then
        (if physicalTable mir (a.toNat % 0x4000 / 0x400 % 4) = 0 then .nametable0 else .nametable1,
          a.toNat % 0x4000 % 0x400)
      else (.pal, if a.toNat % 0x4000 % 0x20 ∈ [0x10, 0x14, 0x18, 0x1C] then a.toNat % 0x4000 % 0x20 - 0x10
        else a.toNat % 0x4000 % 0x20) := by
  have hlt : a.toNat % 0x4000 < 0x4000 := Nat.mod_lt _ (by decide)
  simp only [mirrorPpu]
  generalize a.toNat % 0x4000 = m at hlt ⊢
  by_cases hpal : 0x3F00 ≤ m
  · have hmem : m % 0x20 ∈ [0x10, 0x14, 0x18, 0x1C] ↔ 0x3F00 + m % 0x20 = 0x3F10 ∨ 0x3F00 + m % 0x20 = 0x3F14 ∨
        0x3F00 + m % 0x20 = 0x3F18 ∨ 0x3F00 + m % 0x20 = 0x3F1C := by
      simp only [List.mem_cons, List.not_mem_nil, or_false]
      omega
    simp only [hmem, if_pos hpal, if_neg (show ¬ m < 0x1000 by omega), if_neg (show ¬ m < 0x2000 by omega),
      if_neg (show ¬ m < 0x3F00 by omega)]
    have hcell (q : Nat) (hq : 0x3F00 ≤ q) : ppuCell mir q = (.pal, q - 0x3F00) := by
      rw [ppuCell, if_neg (by omega), if_neg (by omega), if_neg (by omega)]
    split
    · have hoff : 0x3F00 + m % 0x20 - 0x10 - 0x3F00 = m % 0x20 - 0x10 := by omega
      rw [hcell _ (by omega), hoff]
    · rw [hcell _ (by omega), Nat.add_sub_cancel_left]
  · rw [if_neg hpal]
    by_cases hpattern : m < 0x2000
    · rw [if_neg (by omega), ppuCell]
      by_cases hlow : m < 0x1000
      · rw [if_pos hlow, if_pos hlow]
      · rw [if_neg hlow, if_neg hlow, if_pos hpattern, if_pos hpattern]
    · have himage : ∃ q, (if 0x3000 ≤ m then m - 0x1000 else m) = q ∧ 0x2000 ≤ q ∧ q < 0x3000 ∧
          (q - 0x2000) / 0x400 = m / 0x400 % 4 ∧ (q - 0x2000) % 0x400 = m % 0x400 := by
        refine ⟨_, rfl, ?_⟩
        split <;> omega
      obtain ⟨q, hq, hlo, hhi, hslot, hoff⟩ := himage
      rw [hq, if_neg (show ¬ m < 0x1000 by omega), if_neg hpattern, if_pos (show m < 0x3F00 by omega), ppuCell,
        if_neg (by omega), if_neg (by omega), if_pos hhi]
      simp only [hslot, hoff]
      split <;> rfl

/-- The cell of an address depends on the address modulo 0x4000. -/
theorem mirrorPpu_congr {a b : Addr} (h : a.toNat % 0x4000 = b.toNat % 0x4000) : mirrorPpu a = mirrorPpu b := by
  simp only [mirrorPpu, h]

/-- The image of the nametables, 0x1000 above them (R102). -/
theorem mirrorPpu_image {a : Addr} (hlo : 0x2000 ≤ a.toNat) (hhi : a.toNat < 0x2F00) :
    mirrorPpu (a + 0x1000#16) = mirrorPpu a := by
  have hsum : (a + 0x1000#16).toNat = a.toNat + 0x1000 := by
    rw [BitVec.toNat_add, BitVec.toNat_ofNat]
    omega
  simp only [mirrorPpu, hsum]
  rw [if_neg (by omega), if_pos (by omega), if_neg (by omega), if_neg (by omega)]
  omega

/-- Settles O40: the cells by `ppuCell_mirrorPpu`; a write is read back wherever the cell is the same. -/
theorem ppuSpaceReadBack : Obligations.PpuSpaceReadBack := by
  intro u mir a b v hwf cell w
  have hcell (x : Addr) : cell x = ppuCell mir (mirrorPpu x) := by
    rw [ppuCell_mirrorPpu]
    cases mir <;> rfl
  have hback (x : Addr) (h : mirrorPpu x = mirrorPpu a) : ppuRead mir w x = v := by
    rw [ppuRead_ppuWrite u mir a x v (hwf _), if_pos (by rw [h])]
  refine ⟨by rw [hcell]; rfl, by rw [hcell]; rfl, fun k hk => hback _ (mirrorPpu_congr ?_),
    fun hlo hhi => hback _ (mirrorPpu_image hlo hhi), fun hne => ?_⟩
  · rw [BitVec.toNat_add, BitVec.toNat_ofNat]
    omega
  · rw [hcell, hcell] at hne
    rw [ppuRead_ppuWrite u mir a b v (hwf _), if_neg hne]

end Sys2Proof.Machine
end

/-! # The ports of the PPU and the controllers (46_device_registers.md R360 to R376, R388 to R392)

Each port is one arm of the dispatcher; its two forms, in bits and in arithmetic, agree. -/

section
namespace Sys2Proof.Machine

/-! ## PPU control and mask -/

/-- The nametable index is the byte modulo 4. -/
theorem extractLsb'_two_eq_ofNat (v : Byte) : v.extractLsb' 0 2 = BitVec.ofNat 2 (v.toNat % 4) := by
  apply BitVec.eq_of_toNat_eq
  simp [BitVec.extractLsb'_toNat]

/-- A control write (R360, R361), the latch of the nametable index stated by when it is kept. -/
theorem Ppu.writeControl_eq (u : Ppu) (v : Byte) :
    u.writeControl v = { u with
      masterSlave :=
        match u.masterSlave with
        | .unset => if v.getLsbD 6 then .slave else .master
        | .master => .master
        | .slave => .slave
      ctrl :=
        { nametable :=
            if u.mask.getLsbD 3 = false ∧ u.masterSlave = .slave then u.ctrl.nametable
            else BitVec.ofNat 2 (v.toNat % 4)
          inc32 := v.getLsbD 2
          spriteTable := v.getLsbD 3
          bgTable := v.getLsbD 4
          sprite16 := v.getLsbD 5
          nmi := v.getLsbD 7 } } := by
  rw [Ppu.writeControl, extractLsb'_two_eq_ofNat]
  cases u.masterSlave <;> cases u.mask.getLsbD 3 <;> rfl

/-- A control write keeps a resolved master/slave select (R361). -/
theorem Ppu.writeControl_masterSlave {u : Ppu} (h : u.masterSlave ≠ .unset) (v : Byte) :
    (u.writeControl v).masterSlave = u.masterSlave := if_neg h

/-- The memories of the PPU are apart from the select. -/
theorem Ppu.setMemory_masterSlave (u : Ppu) (b : PpuBacking) (m : Memory) :
    (u.setMemory b m).masterSlave = u.masterSlave := by
  cases b <;> rfl

/-- A resolved select is kept by every write of the processor. -/
theorem cpuWrite_masterSlave {s : State} (h : s.ppu.masterSlave ≠ .unset) (a : Addr) (v : Byte) :
    (cpuWrite a v s).ppu.masterSlave = s.ppu.masterSlave := by
  rcases cpuWrite_cases a v s with e | ⟨-, e⟩ | ⟨t, ht, e⟩ | ⟨-, e⟩ <;> rw [e]
  · rw [storeCell_ppu]
  · rcases dispatchWrite_cases ht with ⟨u, rfl, hu⟩ | rfl | rfl | rfl
    · rcases hu with rfl | rfl | rfl | rfl | rfl | rfl | rfl
      · exact Ppu.writeControl_masterSlave h v
      · rfl
      · rfl
      · rfl
      · simp only [State.setPpu_ppu, Ppu.writeScroll]
        split <;> rfl
      · simp only [State.setPpu_ppu, Ppu.writeAddress]
        split <;> rfl
      · exact Ppu.setMemory_masterSlave ..
    · exact oamDma_induct (fun t => t.ppu.masterSlave = s.ppu.masterSlave) v s (fun a t ht => by simpa using ht)
        (fun _ _ _ ht _ => ht) rfl
    · rfl
    · rfl
  · rfl

/-- A resolved select is kept by every instruction. -/
theorem exec_masterSlave {i : Instr} {s t : State} (hsel : s.ppu.masterSlave ≠ .unset) (h : exec i s = .next t) :
    t.ppu.masterSlave = s.ppu.masterSlave := by
  obtain ⟨u, hacc, ht, -⟩ := exec_effect h
  rw [ht.ppu]
  cases hacc with
  | nothing | push | pushTwo => rfl
  | read hu =>
    obtain rfl | ⟨b, rfl⟩ := hu <;> simp
  | write hu =>
    obtain rfl | ⟨b, rfl⟩ := hu
    · exact cpuWrite_masterSlave hsel _ _
    · have hread := cpuRead_ppu_masterSlave b s
      rw [cpuWrite_masterSlave (by rwa [hread]), hread]

/-- Settles O41: a control write in the statement's form, and a step as fetch, instruction and checkpoint. -/
theorem controlAndMaskWrites : Obligations.ControlAndMaskWrites := by
  intro s a v
  refine ⟨fun hm => ?_, fun hm => cpuWrite_device hm (by decide) (by decide) rfl, fun hsel t =>
    ⟨fun i hi => exec_masterSlave hsel hi, fun hreq h => ?_⟩⟩
  · have hw : cpuWrite a v s = s.setPpu (s.ppu.writeControl v) := cpuWrite_device hm (by decide) (by decide) rfl
    rw [hw, Ppu.writeControl_eq]
    rfl
  · obtain ⟨-, rfl⟩ | ⟨f, u, -, hf, hu, rfl⟩ := step_next_cases h
    · rw [holdPaused, serveRestart, if_neg (by simp [hreq])]
    · obtain ⟨-, -, -, -, -, hfetch⟩ := fetch_kept hf
      obtain ⟨-, -, -, -, hreq'⟩ := fetch_exec_kept hf hu
      have hsel' : (advancePc f.len f.state).ppu.masterSlave ≠ .unset :=
        show f.state.ppu.masterSlave ≠ .unset by rwa [hfetch]
      have hexec : u.ppu.masterSlave = s.ppu.masterSlave := (exec_masterSlave hsel' hu).trans hfetch
      obtain ⟨-, -, -, -, -, hserve⟩ := serveInterrupts_kept
        (ppuAdvance (3 * cyclesOf f.instr (advancePc f.len f.state)) u)
      rw [sync_eq, if_neg (by simp [hreq', hreq]), ← ppuAdvance_eq_iterate, hserve, ppuAdvance_ppu_masterSlave,
        hexec]

/-! ## Status, scroll, address and data -/

/-- The status byte, bit by bit (R364). -/
theorem Ppu.statusByte_bits (u : Ppu) :
    u.statusByte.getLsbD 7 = u.vblank ∧ u.statusByte.getLsbD 6 = u.sprite0Hit ∧
      u.statusByte.getLsbD 5 = u.overflow ∧ u.statusByte.toNat % 32 = 0 := by
  rw [Ppu.statusByte]
  cases u.vblank <;> cases u.sprite0Hit <;> cases u.overflow <;> decide

/-- Settles O42: the status register is the arm of 0x2002; its bits are `Ppu.statusByte_bits`. -/
theorem statusRead : Obligations.StatusRead := by
  intro s a hm
  refine ⟨s.ppu.statusByte, ?_, Ppu.statusByte_bits s.ppu⟩
  rw [cpuRead_device hm (by decide) (by decide) rfl, Ppu.afterStatusRead]
  cases s.cfg.statusReadClearsVblank <;> rfl

/-- Settles O44: one arm of the dispatcher each; the halves of the address by `word16_eq`. -/
theorem scrollAndAddressWrites : Obligations.ScrollAndAddressWrites := by
  intro s a v
  refine ⟨fun hm => ?_, fun hm => ?_⟩
  · rw [cpuWrite_device hm (by decide) (by decide) rfl, Ppu.writeScroll]
    cases s.ppu.toggle <;> rfl
  · rw [cpuWrite_device hm (by decide) (by decide) rfl, Ppu.writeAddress, word16_eq, word16_eq, highByte_toNat,
      lowByte_toNat]
    cases s.ppu.toggle <;> rfl

/-- The next address of the data port (R374). -/
theorem Ppu.vaddr_add_increment (u : Ppu) :
    u.vaddr + u.increment = BitVec.ofNat 16 (u.vaddr.toNat + if u.ctrl.inc32 then 32 else 1) := by
  rw [Ppu.increment, BitVec.ofNat_add, BitVec.ofNat_toNat, BitVec.setWidth_eq]
  split <;> rfl

/-- The palette is what mirrors to 0x3F00 or above. -/
theorem palette_le_mirrorPpu (a : Addr) : 0x3F00 ≤ mirrorPpu a ↔ 0x3F00 ≤ a.toNat % 0x4000 := by
  simp only [mirrorPpu]
  split_ifs <;> omega

/-- Settles O45: the arms of 0x2007, with the cursor's step and the palette's bound. -/
theorem dataPort : Obligations.DataPort := by
  intro s a v hm next cell
  have hnext : s.ppu.vaddr + s.ppu.increment = next := Ppu.vaddr_add_increment s.ppu
  have hread : cpuRead a s = ((s.ppu.readData s.cfg.mirroring).1, s.setPpu (s.ppu.readData s.cfg.mirroring).2) :=
    cpuRead_device hm (by decide) (by decide) rfl
  refine ⟨?_, fun h => ?_, fun h => ?_⟩
  · rw [cpuWrite_device hm (by decide) (by decide) rfl, Ppu.writeData, hnext]
    rfl
  · rw [hread, Ppu.readData, if_pos ((palette_le_mirrorPpu _).2 h), hnext]
    rfl
  · rw [hread, Ppu.readData, if_neg (by rw [palette_le_mirrorPpu]; omega), hnext]
    rfl

/-! ## Controllers and audio -/

/-- Button `i` is entry `i` of the list of the eight (R390). -/
theorem Pad.button_eq_getD (p : Pad) {i : Nat} (h : i < 8) :
    p.button i = [p.a, p.b, p.select, p.start, p.up, p.down, p.left, p.right].getD i true := by
  interval_cases i <;> rfl

theorem bitByte_eq (b : Bool) : bitByte b = if b then 1#8 else 0#8 := by
  cases b <;> rfl

/-- A read of controller port 0, case by case (R389). -/
theorem readPort0_eq (s : State) :
    readPort0 s =
      if s.strobe then (bitByte s.controls.pad0.a, s)
      else if s.shiftIdx0 < 8 then
        (bitByte (s.controls.pad0.button s.shiftIdx0), { s with shiftIdx0 := s.shiftIdx0 + 1 })
      else (1#8, s) := by
  rw [readPort0, controllerBit]
  split_ifs <;> rfl

/-- A read of controller port 1, case by case (R389). -/
theorem readPort1_eq (s : State) :
    readPort1 s =
      if s.strobe then (bitByte s.controls.pad1.a, s)
      else if s.shiftIdx1 < 8 then
        (bitByte (s.controls.pad1.button s.shiftIdx1), { s with shiftIdx1 := s.shiftIdx1 + 1 })
      else (1#8, s) := by
  rw [readPort1, controllerBit]
  split_ifs <;> rfl

/-- An audio register reads 0 and ignores writes (R392). -/
theorem dispatch_audio {m : Nat} (h : 0x4000 ≤ m ∧ m ≤ 0x4013 ∨ m = 0x4015) (v : Byte) (s : State) :
    dispatchWrite m v s = some s ∧ dispatchRead m s = some (0#8, s) := by
  have haudio : isAudio m = true := by
    simp only [isAudio, Bool.or_eq_true, Bool.and_eq_true, decide_eq_true_eq, beq_iff_eq]
    exact h
  constructor
  · rw [dispatchWrite, if_neg (by omega), if_neg (by omega), if_neg (by omega), if_neg (by omega),
      if_neg (by omega), if_neg (by omega), if_neg (by omega), if_neg (by omega), if_neg (by omega), haudio]
    rfl
  · rw [dispatchRead, if_neg (by omega), if_neg (by omega), if_neg (by omega), if_neg (by omega),
      if_neg (by omega), if_pos haudio]

/-- Settles O47: the arms of the two ports and of the audio registers. -/
theorem controllersAndAudio : Obligations.ControllersAndAudio := by
  intro s a v bits asByte
  have hbyte (b : Bool) : bitByte b = asByte b := bitByte_eq b
  refine ⟨fun hm => ⟨cpuWrite_device hm (by decide) (by decide) rfl, ?_⟩,
    fun hm => ⟨cpuWrite_device hm (by decide) (by decide) rfl, ?_⟩, fun h => ?_⟩
  · rw [cpuRead_device hm (by decide) (by decide) (r := readPort0 s) rfl, readPort0_eq, hbyte, hbyte]
    split_ifs with hstrobe hidx
    · rfl
    · rw [Pad.button_eq_getD _ hidx]
    · rfl
  · rw [cpuRead_device hm (by decide) (by decide) (r := readPort1 s) rfl, readPort1_eq, hbyte, hbyte]
    split_ifs with hstrobe hidx
    · rfl
    · rw [Pad.button_eq_getD _ hidx]
    · rfl
  · obtain ⟨hw, hr⟩ := dispatch_audio h v s
    exact ⟨cpuWrite_device rfl (by omega) (by omega) hw, cpuRead_device rfl (by omega) (by omega) hr⟩

end Sys2Proof.Machine
end

/-! # The PPU cycle (47_ppu_timing.md R401 to R410) -/

section
namespace Sys2Proof.Machine

/-- Line `l` rendered if it is visible. -/
def drawnLine (l : Nat) (s : State) : State :=
  if l < s.cfg.visibleHeight then renderScanline l s else s

theorem drawnLine_visible {l : Nat} {s : State} (h : l < s.cfg.visibleHeight) : drawnLine l s = renderScanline l s :=
  if_pos h

theorem drawnLine_hidden {l : Nat} {s : State} (h : ¬ l < s.cfg.visibleHeight) : drawnLine l s = s := if_neg h

/-- Drawing a line changes the working buffer, the sprite count and two flags. -/
theorem drawnLine_eq (l : Nat) (s : State) :
    drawnLine l s = s.setPpu { s.ppu with
      work := (drawnLine l s).ppu.work
      spriteCount := (drawnLine l s).ppu.spriteCount
      sprite0Hit := (drawnLine l s).ppu.sprite0Hit
      overflow := (drawnLine l s).ppu.overflow } := by
  rw [drawnLine]
  split
  · exact renderScanline_eq l s
  · rfl

/-- Drawing commutes with writing the dot counter. -/
theorem drawnLine_setCycle (l c : Nat) (s : State) :
    drawnLine l (s.setPpu { s.ppu with cycle := c }) =
      (drawnLine l s).setPpu { (drawnLine l s).ppu with cycle := c } := by
  by_cases h : l < s.cfg.visibleHeight
  · rw [drawnLine_visible (s := s) h]
    exact (drawnLine_visible (s := s.setPpu { s.ppu with cycle := c }) h).trans (renderScanline_setCycle l c s)
  · rw [drawnLine_hidden (s := s) h]
    exact drawnLine_hidden (s := s.setPpu { s.ppu with cycle := c }) h

/-- The work of a line, field by field: draw, or hand the frame over; then vertical blank (R403 to R406). -/
theorem lineWork_eq (l : Nat) (s : State) :
    lineWork l s = { s with
      nmiPending := s.nmiPending || (decide (l = s.cfg.vblankStart) && s.ppu.ctrl.nmi)
      ppu := { s.ppu with
        work := (drawnLine l s).ppu.work
        spriteCount := (drawnLine l s).ppu.spriteCount
        sprite0Hit := (drawnLine l s).ppu.sprite0Hit
        overflow := (drawnLine l s).ppu.overflow
        vblank := s.ppu.vblank || decide (l = s.cfg.vblankStart)
        out := if decide (l = s.cfg.visibleHeight) then s.ppu.work.reverse else s.ppu.out
        frameCount := if decide (l = s.cfg.visibleHeight) then s.ppu.frameCount + 1 else s.ppu.frameCount } } := by
  have hdraw : (if l < s.cfg.visibleHeight then renderScanline l s
      else if l = s.cfg.visibleHeight then finishFrame s else s) = (drawnLine l s).setPpu { (drawnLine l s).ppu with
        out := if decide (l = s.cfg.visibleHeight) then s.ppu.work.reverse else s.ppu.out
        frameCount := if decide (l = s.cfg.visibleHeight) then s.ppu.frameCount + 1 else s.ppu.frameCount } := by
    rw [drawnLine]
    split
    next h =>
      rw [decide_eq_false (Nat.ne_of_lt h), renderScanline_eq]
      rfl
    next =>
      by_cases hvis : l = s.cfg.visibleHeight
      · rw [if_pos hvis, decide_eq_true hvis]
        rfl
      · rw [if_neg hvis, decide_eq_false hvis]
        rfl
  rw [lineWork, hdraw, drawnLine_eq]
  by_cases hblank : l = s.cfg.vblankStart
  · simp [hblank, startVblank, State.setPpu]
  · simp [hblank, State.setPpu]

/-- The end of a line, field by field: its work, the next line, and the wrap, which clears the flags (R403, R409). -/
theorem finishLine_eq (l : Nat) (s : State) :
    finishLine l s =
      let wraps := decide (l + 1 = s.cfg.totalScanlines)
      { lineWork l s with ppu := { (lineWork l s).ppu with
          scanline := if wraps then 0 else l + 1
          sprite0Hit := !wraps && (lineWork l s).ppu.sprite0Hit
          overflow := !wraps && (lineWork l s).ppu.overflow
          vblank := !wraps && (lineWork l s).ppu.vblank } } := by
  rw [finishLine]
  by_cases hwrap : l + 1 = s.cfg.totalScanlines
  · simp [hwrap, wrapFrame, State.setPpu]
  · simp [hwrap, State.setPpu]

/-- A PPU cycle, field by field (R403). -/
theorem ppuCycle_eq (s : State) :
    ppuCycle s =
      let l := s.ppu.scanline
      let ends := atLineEnd s
      let wraps := ends && decide (l + 1 = s.cfg.totalScanlines)
      let handsOver := ends && decide (l = s.cfg.visibleHeight)
      let blanks := ends && decide (l = s.cfg.vblankStart)
      let drawn := if ends = true ∧ l < s.cfg.visibleHeight then renderScanline l s else s
      { s with
        nmiPending := s.nmiPending || (blanks && s.ppu.ctrl.nmi)
        ppu := { s.ppu with
          cycle := if ends then 0 else s.ppu.cycle + 1
          scanline := if wraps then 0 else if ends then l + 1 else l
          work := drawn.ppu.work
          spriteCount := drawn.ppu.spriteCount
          sprite0Hit := !wraps && drawn.ppu.sprite0Hit
          overflow := !wraps && drawn.ppu.overflow
          vblank := !wraps && (s.ppu.vblank || blanks)
          out := if handsOver then s.ppu.work.reverse else s.ppu.out
          frameCount := if handsOver then s.ppu.frameCount + 1 else s.ppu.frameCount } } := by
  cases hend : atLineEnd s
  · rw [ppuCycle_inside s hend]
    simp [State.setPpu]
  · have hdrawn : (if true = true ∧ s.ppu.scanline < s.cfg.visibleHeight then renderScanline s.ppu.scanline s
        else s) = drawnLine s.ppu.scanline s := by
      simp only [drawnLine, true_and]
    dsimp only
    rw [hdrawn, ppuCycle_lineEnd s hend, finishLine_eq, lineWork_eq, drawnLine_setCycle]
    rfl

/-- The state with the fields that PPU cycles may change taken from another. -/
def withProgress (s u : State) : State :=
  { s with
    nmiPending := u.nmiPending
    ppu := { s.ppu with
      cycle := u.ppu.cycle
      scanline := u.ppu.scanline
      work := u.ppu.work
      spriteCount := u.ppu.spriteCount
      sprite0Hit := u.ppu.sprite0Hit
      overflow := u.ppu.overflow
      vblank := u.ppu.vblank
      out := u.ppu.out
      frameCount := u.ppu.frameCount } }

theorem withProgress_withProgress (s u v : State) : withProgress (withProgress s u) v = withProgress s v := rfl

/-- One PPU cycle changes no other field. -/
theorem ppuCycle_eq_withProgress (s : State) : ppuCycle s = withProgress s (ppuCycle s) := by
  rw [ppuCycle_eq]
  rfl

/-- Nor does any number of them. -/
theorem iterate_ppuCycle_eq_withProgress (k : Nat) (s : State) :
    ppuCycle^[k] s = withProgress s (ppuCycle^[k] s) := by
  induction k with
  | zero => rfl
  | succ k ih =>
    rw [Function.iterate_succ_apply']
    calc ppuCycle (ppuCycle^[k] s)
      _ = withProgress (ppuCycle^[k] s) (ppuCycle (ppuCycle^[k] s)) := ppuCycle_eq_withProgress _
      _ = withProgress (withProgress s (ppuCycle^[k] s)) (ppuCycle (ppuCycle^[k] s)) :=
        congrArg (withProgress · (ppuCycle (ppuCycle^[k] s))) ih
      _ = withProgress s (ppuCycle (ppuCycle^[k] s)) := withProgress_withProgress ..

/-- Settles O53: `ppuCycle_eq`, and by induction on the number of cycles. -/
theorem countersAndWrap : Obligations.CountersAndWrap :=
  fun s => ⟨ppuCycle_eq s, fun k => iterate_ppuCycle_eq_withProgress k s⟩

/-- Settles O51: the request and the flag of `ppuCycle_eq`. -/
theorem vblankAndNmi : Obligations.VblankAndNmi := by
  intro s
  rw [ppuCycle_eq]
  refine ⟨rfl, ?_⟩
  cases hend : atLineEnd s <;> by_cases hwrap : s.ppu.scanline + 1 = s.cfg.totalScanlines <;> simp [hwrap]

/-- Settles O52: the output buffer and the counter of `ppuCycle_eq`; the working buffer has a row per visible line. -/
theorem frameHandover : Obligations.FrameHandover := by
  intro s hshape
  obtain ⟨hrows, -⟩ := hshape
  rw [ppuCycle_eq]
  refine ⟨fun ⟨hend, hvis⟩ => ?_, fun h => ?_⟩
  · simp only [hend, hvis, decide_true, Bool.and_self, if_true, true_and]
    intro y hy
    rw [List.getElem?_reverse (by omega), hrows]
    congr 1
    omega
  · have hno : (atLineEnd s && decide (s.ppu.scanline = s.cfg.visibleHeight)) = false := by
      simpa [Bool.and_eq_false_iff] using h
    simp only [hno, Bool.false_eq_true, if_false, and_self]

end Sys2Proof.Machine
end

/-! # One scanline in arithmetic (48_ppu_background.md, 49_ppu_sprites_palette.md)

What rendering computes with bits and masks, written out with quotients and remainders of the bytes it reads. -/

section
namespace Sys2Proof.Machine

/-! ## Colours -/

/-- The low six bits of a byte. -/
theorem toNat_and_lowSix (c : Byte) : (c &&& 0x3F#8).toNat = c.toNat % 64 := by
  rw [BitVec.toNat_and]
  exact Nat.and_two_pow_sub_one_eq_mod c.toNat 6

/-- `Colour(c)` (R480, R481) with the index as a remainder. -/
theorem colour_eq (s : State) (c : Byte) :
    colour s c =
      let e := s.cfg.palette.getD (c.toNat % 64) Rgba.blank
      let m : Byte := BitVec.ofNat 8 ((e.r.toNat + e.g.toNat + e.b.toNat) / 3)
      if s.ppu.mask.getLsbD 0 || s.controls.forceGreyscale then ⟨m, m, m, e.a⟩ else e := by
  rw [colour, toNat_and_lowSix]
  rfl

/-! ## Sprites -/

/-- In double height bit 0 of the tile index names the pattern table (R467). -/
theorem getLsbD_zero_eq_decide_mod (b : Byte) : b.getLsbD 0 = decide (b.toNat % 2 = 1) := by
  rw [BitVec.getLsbD, Nat.testBit_zero]

/-- In double height the tiles are those of the even index and the next (R467). -/
theorem toNat_and_even (b : Byte) : (b &&& 0xFE#8).toNat = b.toNat / 2 * 2 := by
  revert b
  decide

/-- An entry meets a line from the one below its Y to its height further (R460, R464). -/
theorem intersects_eq (u : Ppu) (k y : Nat) :
    u.intersects k y = decide ((u.oam.read (4 * k)).toNat + 1 ≤ y ∧
      y < (u.oam.read (4 * k)).toNat + 1 + if u.ctrl.sprite16 then 16 else 8) := by
  rw [Bool.decide_and]
  rfl

/-- The pixel index of entry `k` from its bytes and the bit planes (R463, R466, R467). -/
theorem spritePixel_eq (u : Ppu) (k y c : Nat) :
    u.spritePixel (u.sprite k) y c =
      let byte (k : Nat) : Nat := (u.oam.read k).toNat
      let flag (k b : Nat) : Bool := (u.oam.read (4 * k + 2)).getLsbD b
      let height := if u.ctrl.sprite16 then 16 else 8
      let r0 := y - (byte (4 * k) + 1)
      let r := if flag k 7 then height - 1 - r0 else r0
      let tile := byte (4 * k + 1)
      let table := if u.ctrl.sprite16 then decide (tile % 2 = 1) else u.ctrl.spriteTable
      let start := if u.ctrl.sprite16 then (tile / 2 * 2 + r / 8) * 16 + r % 8 else tile * 16 + r
      let plane (q : Nat) : Nat := ((if table then u.pattern1 else u.pattern0).read q).toNat
      let bit := if flag k 6 then c else 7 - c
      plane (start + 8) / 2 ^ bit % 2 * 2 + plane start / 2 ^ bit % 2 := by
  simp only [Ppu.spritePixel, Ppu.spriteHeight, tilePixel_eq, getLsbD_zero_eq_decide_mod, toNat_and_even]
  cases u.ctrl.sprite16 <;> rfl

/-- The sprite counter as the size of a set (R468). -/
theorem spritesOn_eq_card (u : Ppu) (y : Nat) :
    u.spritesOn y = ((Finset.range 64).filter fun k => u.intersects k y = true).card := by
  have hcard : ((Finset.range 64).filter fun k => u.intersects k y = true).card =
      ((List.range 64).filter fun k => decide (u.intersects k y = true)).length := rfl
  rw [hcard, Ppu.spritesOn, List.countP_eq_length_filter]
  simp only [Bool.decide_eq_true]

/-- The hit flag after one pass: entry 0 has a drawn pixel on the line (R469). -/
theorem spritePass_hit_iff (s : State) (y : Nat) (behind : Bool) (acc : SpriteRow) :
    (spritePass s y behind acc).hit = true ↔ acc.hit = true ∨
      (s.ppu.intersects 0 y = true ∧ (s.ppu.sprite 0).attr.getLsbD 5 = behind ∧
        ∃ c < 8, (s.ppu.sprite 0).x.toNat + c < s.cfg.width ∧ s.ppu.spritePixel (s.ppu.sprite 0) y c ≠ 0) := by
  rw [spritePass, drawSprites_hit, Bool.or_eq_true, List.any_eq_true]
  refine or_congr_right ⟨?_, ?_⟩
  · rintro ⟨i, -, hi⟩
    simp only [Bool.and_eq_true, List.any_eq_true, List.mem_range, beq_iff_eq, decide_eq_true_eq] at hi
    obtain ⟨⟨hline, hpass⟩, c, hc, rfl, hdraw⟩ := hi
    exact ⟨hline, hpass, c, hc, by omega, fun hzero => hdraw (.inr hzero)⟩
  · rintro ⟨hline, hpass, c, hc, hx, hpix⟩
    refine ⟨0, by simp, ?_⟩
    simp only [Bool.and_eq_true, List.any_eq_true, List.mem_range, beq_iff_eq, decide_eq_true_eq]
    exact ⟨⟨hline, hpass⟩, c, hc, trivial, by omega⟩

/-- The hit flag of a composed line: either pass may set it. -/
theorem composeRow_hit_iff {s : State} (h : s.ppu.mask.getLsbD 4 = true) (y : Nat) :
    (composeRow s y).hit = true ↔ s.ppu.sprite0Hit = true ∨
      (s.ppu.intersects 0 y = true ∧
        ∃ c < 8, (s.ppu.sprite 0).x.toNat + c < s.cfg.width ∧ s.ppu.spritePixel (s.ppu.sprite 0) y c ≠ 0) := by
  have hground (acc : SpriteRow) :
      (if s.ppu.mask.getLsbD 3 then { acc with row := background s y acc.row } else acc).hit = acc.hit := by
    split <;> rfl
  simp only [composeRow, h, if_true, spritePass_hit_iff, hground]
  cases (s.ppu.sprite 0).attr.getLsbD 5 <;> simp

/-- Without sprites a composed line keeps the hit flag. -/
theorem composeRow_hit_hidden {s : State} (h : s.ppu.mask.getLsbD 4 = false) (y : Nat) :
    (composeRow s y).hit = s.ppu.sprite0Hit := by
  simp only [composeRow, h, Bool.false_eq_true, if_false]
  split <;> rfl

/-- Settles O54: the counter as a set's size, the hit flag by the two passes, the pixel by `spritePixel_eq`. -/
theorem spriteFlags : Obligations.SpriteFlags := by
  intro s y t byte flag height onLine spritePix
  have honLine (k : Nat) : s.ppu.intersects k y = onLine k := intersects_eq s.ppu k y
  have hpix (c : Nat) : s.ppu.spritePixel (s.ppu.sprite 0) y c = spritePix 0 c := spritePixel_eq s.ppu 0 y c
  refine ⟨fun hmask => ?_, fun hmask => ?_⟩
  · have hcount := spritesOn_eq_card s.ppu y
    have hhit := composeRow_hit_iff hmask y
    simp only [honLine] at hcount
    simp only [honLine, hpix] at hhit
    simp only [t, renderScanline, hmask, if_true, ← hcount]
    exact ⟨rfl, rfl, hhit⟩
  · simp only [t, renderScanline, hmask]
    exact ⟨rfl, rfl, composeRow_hit_hidden hmask y⟩

/-! ## Every pixel of a line -/

/-- The geometry of the background (R431 to R433), with the bits of the nametable index as quotient and remainder. -/
theorem bgPos_eq (u : Ppu) (y x : Nat) :
    bgPos u y x =
      { base := 0x2000 + ((u.ctrl.nametable.toNat / 2 + (y + u.scrollY.toNat) / 240) % 2 * 2 +
          (u.ctrl.nametable.toNat % 2 + (x + u.scrollX.toNat) / 256) % 2) * 0x400
        row := (y + u.scrollY.toNat) % 240 / 8
        col := (x + u.scrollX.toNat) % 256 / 8
        fy := (y + u.scrollY.toNat) % 240 % 8
        fx := (x + u.scrollX.toNat) % 256 % 8 } := by
  obtain ⟨hbit0, hbit1⟩ := nametable_bits u.ctrl.nametable
  rw [bgPos, hbit0, hbit1]

/-- The palette selector (R435) with the shift as a quotient. -/
theorem bgSelector_eq (mir : Mirroring) (u : Ppu) (p : BgPos) :
    bgSelector mir u p =
      (ppuRead mir u (BitVec.ofNat 16 (p.base + 960 + p.row / 4 * 8 + p.col / 4))).toNat /
        2 ^ (p.row % 4 / 2 * 4 + p.col % 4 / 2 * 2) % 4 := by
  rw [bgSelector, Nat.shiftRight_eq_div_pow]

/-- The first sprite drawn at a pixel, none when sprites are not shown. -/
theorem find?_shown {p q : Nat → Bool} (shown : Bool) (h : ∀ k, q k = (shown && p k)) (l : List Nat) :
    (if shown then l.find? p else none) = l.find? q := by
  obtain rfl : q = fun k => shown && p k := funext h
  cases shown
  · exact (List.find?_eq_none.2 (by simp)).symm
  · simp

/-- Settles O55: `composeRow_getElem?`, each part of it in arithmetic. -/
theorem backgroundScanline : Obligations.BackgroundScanline := by
  intro s y x hshape hy hx
  obtain ⟨hrows, -⟩ := hshape
  intro yv xv slotY slotX base row col rd tile attr sel plane bit pix byte flag height onLine spritePix drawn top
    colourOf spriteColour t
  have hcolour (cell : Nat) : colour s (s.ppu.pal.read cell) = colourOf cell := colour_eq s _
  have hspritePix (k c : Nat) : s.ppu.spritePixel (s.ppu.sprite k) y c = spritePix k c := spritePixel_eq s.ppu k y c
  have hspriteColour (k : Nat) : spriteColourAt s y x k = spriteColour k := by
    rw [spriteColourAt, hcolour, hspritePix]
    rfl
  have hdrawn (behind : Bool) (k : Nat) : drawn behind k = (s.ppu.mask.getLsbD 4 && drawsAt s y x behind k) := by
    rw [drawsAt, hspritePix, intersects_eq, ← Bool.and_assoc, ← Bool.and_assoc]
    rfl
  have htop (behind : Bool) : (if s.ppu.mask.getLsbD 4 then (List.range 64).find? (drawsAt s y x behind) else none) =
      top behind := find?_shown _ (hdrawn behind) _
  have hpix : bgPixel s.cfg.mirroring s.ppu (bgPos s.ppu y x) = pix := by
    rw [bgPixel, bgTile, tilePixel_eq, bgPos_eq]
  have hsel : bgSelector s.cfg.mirroring s.ppu (bgPos s.ppu y x) = sel := by
    rw [bgSelector_eq, bgPos_eq]
  have hwork : t.ppu.work = s.ppu.work.set y (composeRow s y).row := by
    simp only [t, renderScanline, State.setPpu_ppu]
    split <;> rfl
  refine ⟨⟨(composeRow s y).row, ?_, ?_⟩, fun z hz => ?_⟩
  · rw [hwork, List.getElem?_set_self (by omega)]
  · rw [composeRow_getElem? s y x hx, htop, htop, hpix, hsel]
    cases top false with
    | some k => simp only [hspriteColour]
    | none =>
      have hopaque : (s.ppu.mask.getLsbD 3 && !decide (pix = 0)) =
          decide (s.ppu.mask.getLsbD 3 = true ∧ pix ≠ 0) := by
        simp
      simp only [hopaque, Bool.cond_decide, hcolour]
      cases top true <;> simp only [hspriteColour]
  · rw [hwork, List.getElem?_set_ne hz.symm]

end Sys2Proof.Machine
end

/-! # Reset and power-on (10_state.md R60 to R65, 70_reset_and_hazards.md R550 to R560) -/

section
namespace Sys2Proof.Machine

/-! ## What a reset leaves -/

/-- An image as a memory reads as its bytes, and zero beyond them (R551, R552). -/
theorem Memory.read_ofBytes {n i : Nat} (h : i < n) (bs : List Byte) :
    (Memory.ofBytes n bs).read i = bs.getD i 0 :=
  Memory.read_ofBytesFrom n 0 bs i (Nat.zero_le i) (by omega)

/-- A blank frame has its shape, and every pixel of it is blank. -/
theorem Frame.blank_shaped (c : Config) :
    Frame.shaped c (List.replicate c.visibleHeight (List.replicate c.width Rgba.blank)) ∧
      ∀ row ∈ List.replicate c.visibleHeight (List.replicate c.width Rgba.blank), ∀ px ∈ row, px = ⟨0, 0, 0, 0⟩ := by
  refine ⟨⟨List.length_replicate, fun row hrow => ?_⟩, fun row hrow px hpx => ?_⟩
  · rw [List.eq_of_mem_replicate hrow, List.length_replicate]
  · rw [List.eq_of_mem_replicate hrow] at hpx
    exact List.eq_of_mem_replicate hpx

/-- The pattern tables of a reset are the two halves of CHR_IMAGE (R552). -/
theorem Ppu.boot_pattern (c : Config) {n : Nat} (hn : n < 0x1000) :
    (Ppu.boot c).pattern0.read n = c.chrImage.getD n 0 ∧
      (Ppu.boot c).pattern1.read n = c.chrImage.getD (0x1000 + n) 0 := by
  refine ⟨Memory.read_ofBytes hn _, (Memory.read_ofBytes hn _).trans ?_⟩
  rw [List.getD_eq_getElem?_getD, List.getElem?_drop, List.getD_eq_getElem?_getD]

/-- No act of the host changes what a restart is made from but the controls. -/
theorem restart_hostAct (h : HostAction) (s : State) :
    restart (hostAct h s) = { restart s with controls := (hostAct h s).controls } := by
  cases h with
  | setPad port pad => cases port <;> rfl
  | setPaused | setRestartRequested | setSpeed | setGreyscale | takeFrameCount => rfl

/-- Settles O56: the fields of `State.boot` and `Ppu.boot`, whose images, frames and vector have lemmas of their
own. -/
theorem resetValues : Obligations.ResetValues := by
  refine ⟨?restart, ?first, rfl⟩
  case restart =>
    intro s r u
    refine ⟨?registers, ?machine, fun _ => ⟨rfl, rfl, rfl, rfl⟩, fun n hn => Ppu.boot_pattern s.cfg hn, ?ppu, ?frames,
      rfl, fun h => restart_hostAct h s⟩
    case registers => exact ⟨rfl, rfl, rfl, rfl, rfl, rfl, rfl, rfl, rfl, rfl, word16_eq _ _⟩
    case machine => exact ⟨rfl, rfl, rfl, rfl, rfl, rfl, rfl, rfl, fun _ => ⟨rfl, rfl, rfl, rfl, rfl⟩⟩
    case ppu => exact ⟨rfl, rfl, rfl, rfl, rfl, rfl, rfl, rfl, rfl, rfl, rfl, rfl, rfl, rfl, rfl, rfl⟩
    case frames =>
      intro f hf
      have hblank : f = List.replicate s.cfg.visibleHeight (List.replicate s.cfg.width Rgba.blank) := by
        simpa [u, r, restart, State.boot, Ppu.boot] using hf
      rw [hblank]
      exact Frame.blank_shaped s.cfg
  case first =>
    intro c r
    exact ⟨rfl, rfl, fun n hn => Memory.read_ofBytes hn c.prgImage, rfl, rfl, rfl⟩

/-! ## The invariant at the first reset -/

/-- A first reset leaves the invariant: its program storage is an image. -/
theorem inv_firstReset {c : Config} (hc : c.WellFormed) : Inv (State.firstReset c) :=
  inv_boot c hc _ (Memory.ofBytes_good _ _) _

/-- The configuration of the machine itself is well formed. -/
theorem defaultConfig_wellFormed : defaultConfig.WellFormed := by
  decide +kernel

/-- Settles O59: `inv_boot`, and the cases of `powerOn`. -/
theorem invariantAtReset : Obligations.InvariantAtReset :=
  ⟨fun _ => inv_firstReset, inv_firstReset defaultConfig_wellFormed, fun _ => ⟨rfl, rfl, rfl, rfl⟩⟩

end Sys2Proof.Machine
end
